-- ==== Sys2Proof/Word.lean ====
section
/-! DEFINITION. The widths of the core's values (spec 00_scope.md R9) and nothing else. -/

namespace Sys2Proof

/-- A field element, a ROM entry, a byte of an operand: 8 bits (R9). -/
abbrev Byte := BitVec 8

/-- An AES column or key-schedule word: 32 bits (R9). -/
abbrev Word := BitVec 32

/-- A 64-bit half of an operand (R44, R105). -/
abbrev DWord := BitVec 64

/-- An operand, a result, an AES state, a round key: 128 bits (R9). -/
abbrev Block := BitVec 128

/-- A packed request, the fields c, b, a, op from the high bits down (R60). -/
abbrev Request := BitVec 388

end Sys2Proof
end

