-- ==== Sys2Proof/Syntax.lean ====
section
/-! DEFINITION. The operations of the core: one constructor per row of spec/opcode_table.json (30_encoding.md R61), each
with all three operand ports (R25, R60), the ignored ones too (R63), so that no bit of a request is lost. -/

namespace Sys2Proof

/-- A request, taken apart (R60, R61). `a`, `b` and `c` are the values on the operand ports. -/
inductive Instr where
  /-- 0x0: a middle decryption round (R180). -/
  | aesdm (a b c : Block)
  /-- 0x1: the final decryption round (R181). -/
  | aesdf (a b c : Block)
  /-- 0x2: a middle encryption round (R182). -/
  | aesem (a b c : Block)
  /-- 0x3: the final encryption round (R183). -/
  | aesef (a b c : Block)
  /-- 0x4: the zero round, key XOR only (R184). -/
  | aesz (a b c : Block)
  /-- 0x5: Galois multiply (R164). -/
  | gmul (a b c : Block)
  /-- 0x6: Galois-hash accumulate (R165). -/
  | ghsh (a b c : Block)
  /-- 0x7: key-schedule phase 1 (R147). -/
  | aeskf1 (a b c : Block)
  /-- 0x8: key-schedule phase 2 (R148). -/
  | aeskf2 (a b c : Block)
  /-- 0x9: SM4 key expansion, unsupported (R203). -/
  | sm4k (a b c : Block)
  /-- 0xA: SM4 round, unsupported (R204). -/
  | sm4r (a b c : Block)
  /-- 0xB: SM3 message expansion, unsupported (R205). -/
  | sm3me (a b c : Block)
  /-- 0xC: SM3 compression, unsupported (R206). -/
  | sm3c (a b c : Block)
  /-- 0xD: SHA-2 message schedule, unsupported (R207). -/
  | sha2ms (a b c : Block)
  /-- 0xE: SHA-2 compression, high half, unsupported (R208). -/
  | sha2ch (a b c : Block)
  /-- 0xF: SHA-2 compression, low half, unsupported (R209). -/
  | sha2cl (a b c : Block)
  deriving DecidableEq, Repr

/-- The operation code of R61. -/
def Instr.code : Instr → BitVec 4
  | .aesdm _ _ _ => 0x0
  | .aesdf _ _ _ => 0x1
  | .aesem _ _ _ => 0x2
  | .aesef _ _ _ => 0x3
  | .aesz _ _ _ => 0x4
  | .gmul _ _ _ => 0x5
  | .ghsh _ _ _ => 0x6
  | .aeskf1 _ _ _ => 0x7
  | .aeskf2 _ _ _ => 0x8
  | .sm4k _ _ _ => 0x9
  | .sm4r _ _ _ => 0xA
  | .sm3me _ _ _ => 0xB
  | .sm3c _ _ _ => 0xC
  | .sha2ms _ _ _ => 0xD
  | .sha2ch _ _ _ => 0xE
  | .sha2cl _ _ _ => 0xF

/-- The value on the operand port `a`. -/
def Instr.opA : Instr → Block
  | .aesdm a _ _ | .aesdf a _ _ | .aesem a _ _ | .aesef a _ _ | .aesz a _ _ | .gmul a _ _ | .ghsh a _ _
  | .aeskf1 a _ _ | .aeskf2 a _ _ | .sm4k a _ _ | .sm4r a _ _ | .sm3me a _ _ | .sm3c a _ _ | .sha2ms a _ _
  | .sha2ch a _ _ | .sha2cl a _ _ => a

/-- The value on the operand port `b`. -/
def Instr.opB : Instr → Block
  | .aesdm _ b _ | .aesdf _ b _ | .aesem _ b _ | .aesef _ b _ | .aesz _ b _ | .gmul _ b _ | .ghsh _ b _
  | .aeskf1 _ b _ | .aeskf2 _ b _ | .sm4k _ b _ | .sm4r _ b _ | .sm3me _ b _ | .sm3c _ b _ | .sha2ms _ b _
  | .sha2ch _ b _ | .sha2cl _ b _ => b

/-- The value on the operand port `c`. -/
def Instr.opC : Instr → Block
  | .aesdm _ _ c | .aesdf _ _ c | .aesem _ _ c | .aesef _ _ c | .aesz _ _ c | .gmul _ _ c | .ghsh _ _ c
  | .aeskf1 _ _ c | .aeskf2 _ _ c | .sm4k _ _ c | .sm4r _ _ c | .sm3me _ _ c | .sm3c _ _ c | .sha2ms _ _ c
  | .sha2ch _ _ c | .sha2cl _ _ c => c

end Sys2Proof
end

