-- ==== Sys2Proof/WellFormed.lean ====
section
/-! DEFINITION. What a well-formed term is. Every value of a request's fields is a request the core answers (R62, R66), and
the widths stand in the types, so an instruction has no check that could fail. What can be ill formed is a use of the
bit-field extractor (R80, R82), an operand of a request script (R67). -/

namespace Sys2Proof

/-- Every operation with any operands is well formed: all 16 codes have a meaning (R62), no operand value is illegal
(R66, R223). -/
def Instr.wellFormed : Instr → Bool := fun _ => true

/-- The precondition of the bit-field extractor on an `n`-bit value (R80; `1 ≤ width` is D21). A use that breaks it is a
design error, which a model refuses when it builds the term (R82). -/
def fieldOk (n start width : Nat) : Bool := decide (1 ≤ width) && decide (start + width ≤ n)

/-- The precondition of the signed extractor with an `m`-bit output: that of R80, and `m ≥ width` (R81). -/
def signedFieldOk (n start width m : Nat) : Bool := fieldOk n start width && decide (width ≤ m)

/-- The number of a script operand `#n` lies in 0..15 (R67). -/
def immOk (n : Nat) : Bool := decide (n ≤ 15)

end Sys2Proof
end

