-- ==== Sys2Proof/Decode.lean ====
section
/-! DEFINITION. The request format (30_encoding.md R60), the decoder and the encoder, both from the table of R61. -/

namespace Sys2Proof

/-- The `op` field, bits 3:0 of a packed request (R60). -/
def reqOp (r : Request) : BitVec 4 := r.extractLsb' 0 4

/-- The `a` field, bits 131:4 (R60). -/
def reqA (r : Request) : Block := r.extractLsb' 4 128

/-- The `b` field, bits 259:132 (R60). -/
def reqB (r : Request) : Block := r.extractLsb' 132 128

/-- The `c` field, bits 387:260 (R60). -/
def reqC (r : Request) : Block := r.extractLsb' 260 128

/-- The packed request {c, b, a, op} (R60). -/
def packRequest (op : BitVec 4) (a b c : Block) : Request := c ++ b ++ a ++ op

/-- The operation select of R61: total over the 16 codes (R62, R200). The last line is the code 0xF. -/
def decodeOp (op : BitVec 4) (a b c : Block) : Instr :=
  match op with
  | 0x0#4 => .aesdm a b c
  | 0x1#4 => .aesdf a b c
  | 0x2#4 => .aesem a b c
  | 0x3#4 => .aesef a b c
  | 0x4#4 => .aesz a b c
  | 0x5#4 => .gmul a b c
  | 0x6#4 => .ghsh a b c
  | 0x7#4 => .aeskf1 a b c
  | 0x8#4 => .aeskf2 a b c
  | 0x9#4 => .sm4k a b c
  | 0xA#4 => .sm4r a b c
  | 0xB#4 => .sm3me a b c
  | 0xC#4 => .sm3c a b c
  | 0xD#4 => .sha2ms a b c
  | 0xE#4 => .sha2ch a b c
  | _ => .sha2cl a b c

/-- The decoder of a packed request. It reads the operation from `op` alone (R60) and refuses nothing (R62, R66). -/
def decode (r : Request) : Instr := decodeOp (reqOp r) (reqA r) (reqB r) (reqC r)

/-- The encoder of a request (R60, R61). -/
def encode (i : Instr) : Request := packRequest i.code i.opA i.opB i.opC

/-- Why a number is no request. -/
inductive DecodeError where
  /-- A bit at or above 388 is set: every request is 388 bits long (R60). -/
  | longerThanOneRequest
  deriving DecidableEq, Repr

/-- Decoding of a number of any size: op is bits 3:0, a bits 131:4, b bits 259:132, c bits 387:260 (R60); bits that are
not given are 0 (R67: a left-out operand is driven with 0); a number with a bit at or above 388 is no request (R60; log 8). -/
def decodeNumber (w : Nat) : Except DecodeError Instr :=
  if w >>> 388 = 0 then
    .ok (decodeOp (BitVec.ofNat 4 w) (BitVec.ofNat 128 (w >>> 4)) (BitVec.ofNat 128 (w >>> 132))
      (BitVec.ofNat 128 (w >>> 260)))
  else .error .longerThanOneRequest

/-- The host's entry: the low `nbits` bits of `w`, every bit above them 0. -/
def decodeTableWord (nbits w : Nat) : Option Instr :=
  match decodeNumber (w % 2 ^ nbits) with
  | .ok i => some i
  | .error _ => none

/-- The mnemonics of R61, in the order of their codes. -/
def mnemonics : List String :=
  ["AESDM", "AESDF", "AESEM", "AESEF", "AESZ", "GMUL", "GHSH", "AESKF1",
   "AESKF2", "SM4K", "SM4R", "SM3ME", "SM3C", "SHA2MS", "SHA2CH", "SHA2CL"]

/-- The operation code a mnemonic names (R61, R67), none for any other text. -/
def codeOfMnemonic (m : String) : Option (BitVec 4) :=
  (mnemonics.findIdx? (· == m)).map (BitVec.ofNat 4)

end Sys2Proof
end

