-- ==== Sys2Proof/Config.lean ====
section
/-! DEFINITION. What an implementation fixes, and the free values the spec leaves open: opaque constants with no body, of
which nothing can be proved. Log: notes/assumptions/3.md, 6.md, 7.md. -/

namespace Sys2Proof.Config

/-- The default of the open parameter LATENCY (00_scope.md R10). The model takes LATENCY as an argument
(Machine.State.resetAt); this default is used by Machine.State.reset alone. -/
def defaultLatency : Nat := 0

/-- FREE VALUE (93_implementation_defined.md U8, U9, U11; 10_state.md R30, R32): what a data register {unsup, res} of the
wrapper holds where the spec lets it hold any value. Applied to the step counter and the register's index. -/
opaque freeDat : Nat → Nat → BitVec 129

/-- FREE VALUE (93_implementation_defined.md U9, U11): what a valid bit of the wrapper holds before the first reset edge
and after the clock was stopped. Applied to the step counter and the bit's index. -/
opaque freeVld : Nat → Nat → Bool

/-- FREE VALUE (93_implementation_defined.md U10; 10_state.md R31): what {unsup, res} show while out_valid = 0. Applied to
the step counter. -/
opaque freeOut : Nat → BitVec 129

end Sys2Proof.Config
end

