-- ==== Sys2Proof/Machine/State.lean ====
section
/-! DEFINITION. The state of the core: 10_state.md, with the input ports as the caller drives them. -/

namespace Sys2Proof.Machine

/-- The exceptions of the core (60_exceptions.md R220). None of them stops the machine (R221, R225, R228): no step answers
a fault. A fault is what the model RECORDS for a response (R222), see `Response`. -/
inductive Fault where
  /-- Cause code 1, recorded for the response to an operation code 0x9 to 0xF (R220). Safe: the record gives no result
  value where the chip's `res` shows 0 (D8). -/
  | unsupportedOperation
  deriving DecidableEq, Repr

/-- The reasons a step would have no meaning. No step gives one: every operation has its meaning. -/
inductive Refusal where
  /-- Raised by an arm of `exec` whose operation had no meaning yet; there is none. Safe. -/
  | notModelled (mnemonic : String)
  deriving DecidableEq, Repr

/-- What the core answers to one request: the pair of output values {unsup, res}, 129 bits (R25, R29). -/
structure Reply where
  /-- `unsup`, 1 for an unsupported operation (R23). -/
  unsup : Bool
  /-- `res`, the 128-bit result (R25). -/
  res : Block
  deriving DecidableEq, Repr, Inhabited

/-- The reply in 129 bits {unsup, res}, `unsup` on top (R29). -/
def Reply.ofBits (w : BitVec 129) : Reply := ⟨w.getLsbD 128, w.extractLsb' 0 128⟩

/-- A response as a model records it (R210, R222): a result, or a fault of its request, never the value 0. -/
inductive Response where
  /-- A response with `unsup = 0`: the 128-bit result. -/
  | result (res : Block)
  /-- A response with `unsup = 1`: a fault, with no value (R222; 93 U5). -/
  | fault (cause : Fault)
  deriving DecidableEq, Repr

/-- What the clock does in one step (R28, R234). -/
inductive Clock where
  /-- A rising edge of `clk`. -/
  | rising
  /-- The clock was stopped for a while, with no edge (R234; 93 U11). -/
  | stopped
  deriving DecidableEq, Repr

/-- The values on the input ports in one step (R25, R28). With LATENCY = 0 the ports clk, rst and in_valid do not exist
and the model ignores them (log 10). -/
structure Pins where
  /-- `clk` (R28). -/
  clk : Clock
  /-- `rst`, synchronous, active high (R28). -/
  rst : Bool
  /-- `in_valid`: a request is presented (R28). -/
  inValid : Bool
  /-- `op`, the operation select (R25). -/
  op : BitVec 4
  /-- `a` (R25). -/
  a : Block
  /-- `b` (R25). -/
  b : Block
  /-- `c` (R25). -/
  c : Block
  deriving DecidableEq, Repr

/-- Stage i of the registered wrapper: `vld[i]` and `dat[i]` (R29). -/
structure Stage where
  /-- `vld[i]`. -/
  vld : Bool
  /-- `dat[i]`, {unsup, res}. -/
  dat : Reply
  deriving DecidableEq, Repr

/-- The contents of one ROM, as its differences from the constants of its table (41_sbox.md R100, R101): addresses strictly
rising, no entry equal to the constant there (Memory.wf in Machine/Rom.lean; log 11). -/
abbrev Memory := List Host.Cell

/-- The two ROMs (R27, R40). -/
structure Rom where
  /-- `SBOX`. -/
  sbox : Memory
  /-- `INVSBOX`. -/
  invsbox : Memory
  deriving DecidableEq, Repr

/-- The whole state. -/
structure State where
  /-- The two ROMs (R27). -/
  rom : Rom
  /-- The values on the input ports in the last step (R25, R28). -/
  pins : Pins
  /-- The model's own: what the caller drives on the input ports in the steps to come, the next one first (log 1). -/
  inbox : List Pins
  /-- The outputs {unsup, res} of the combinational core, LATENCY = 0 (R26). -/
  out : Reply
  /-- The wrapper's `vld[i]` and `dat[i]`, i = 0 first; as many as LATENCY (R29). -/
  stages : List Stage
  /-- The model's own: whether a reset edge was sampled since power-up. While it is not, nothing is known of the wrapper
  (R243; 93 U9; log 15). LATENCY = 0 has no reset and does not read it. -/
  wasReset : Bool
  /-- The model's own: how many steps were taken; the free values are applied to it (log 6). -/
  cycle : Nat
  deriving DecidableEq, Repr

/-- LATENCY, the open parameter (00_scope.md R10): the number of stages. No step changes it. -/
def State.latency (s : State) : Nat := s.stages.length

/-- The ROMs at power-up and ever after: no entry differs from the tables (R32, R241). -/
def Rom.reset : Rom := ⟨[], []⟩

/-- The input ports before the caller drives them: the spec gives no value (DESIGN CHOICE 0, log 4). -/
def Pins.zero : Pins := ⟨.rising, false, false, 0, 0, 0, 0⟩

/-- The state right after reset with LATENCY = L (R32): valid bits 0, data registers any value. The combinational outputs
have no reset and are always Execute of the ports (R32), that is of AESDM on zeros (R180 gives that value). -/
def State.resetAt (L : Nat) : State where
  rom := Rom.reset
  pins := Pins.zero
  inbox := []
  out := ⟨false, 0x52525252525252525252525252525252#128⟩
  stages := (List.range L).map fun i => ⟨false, Reply.ofBits (Config.freeDat 0 i)⟩
  wasReset := true
  cycle := 0

/-- The state at power-up, before the first reset edge, with LATENCY = L: the ROMs are valid (R241), the valid bits and data
registers hold any value, and no reset was sampled (R243; 93 U9). -/
def State.powerUp (L : Nat) : State :=
  { State.resetAt L with
    stages := (List.range L).map fun i => ⟨Config.freeVld 0 i, Reply.ofBits (Config.freeDat 0 i)⟩
    wasReset := false }

/-- The machine right after reset, at the default LATENCY of R10. -/
def State.reset : State := State.resetAt Config.defaultLatency

end Sys2Proof.Machine
end

