-- ==== Sys2Proof/Machine/Ops.lean ====
section
/-! DEFINITION. The named operations over the state: answering a request (R26, R30), raising the unsupported-operation
exception (R221), the other edges of the wrapper (R30, R234), reading the outputs (R31), fetching a request. -/

namespace Sys2Proof.Machine

/-- The wrapper's shift at an edge with rst = 0: stage i takes stage i-1, stage 0 takes `new` (R30). -/
def shiftStages (new : Stage) (stages : List Stage) : List Stage := (new :: stages).dropLast

/-- The stages when every `vld[i]` and `dat[i]` holds any value. -/
def State.anyStages (s : State) : List Stage :=
  s.stages.mapIdx fun i _ => ⟨Config.freeVld s.cycle i, Reply.ofBits (Config.freeDat s.cycle i)⟩

/-- An edge with rst = 0: the stages shift and stage 0 takes `new` (R30). Before the first reset edge `vld` has no defined
value, so every `vld[i]` and `dat[i]` holds any value after the edge (R243; 93 U9; log 15). -/
def State.shiftIn (new : Stage) (s : State) : State :=
  { s with stages := if s.wasReset then shiftStages new s.stages else s.anyStages }

/-- The core answers the presented request with `r`. LATENCY = 0: the outputs take it at once (R26). LATENCY ≥ 1: an edge
with rst = 0 and in_valid = 1, `vld[0] <- 1` and `dat[0] <- r` (R30, R243). -/
def State.respond (s : State) (r : Reply) : State :=
  match s.stages with
  | [] => { s with out := r }
  | _ :: _ => s.shiftIn ⟨true, r⟩

/-- `res <- v; unsup <- 0`: the response of a supported operation (R200). -/
def State.answer (s : State) (v : Block) : State := s.respond ⟨false, v⟩

/-- TAKING THE EXCEPTION, `raise Unsupported(op)`: `res <- 0; unsup <- 1` for this request's response and nothing else
(R221). There is no trap entry and no return from one (R225, R228). -/
def State.raiseUnsupported (s : State) : State := s.respond ⟨true, 0⟩

/-- A rising edge with rst = 0 and in_valid = 0: the stages shift, `vld[0] <- 0`, `dat[0]` takes any value (R30). -/
def State.bubbleEdge (s : State) : State :=
  s.shiftIn ⟨false, Reply.ofBits (Config.freeDat s.cycle 0)⟩

/-- A rising edge with rst = 1: every `vld[i] <- 0`, every `dat[i]` keeps any value (R30, R240). From here on the rules
of the wrapper hold (R243). -/
def State.resetEdge (s : State) : State :=
  { s with
    stages := s.stages.mapIdx fun i _ => ⟨false, Reply.ofBits (Config.freeDat s.cycle i)⟩
    wasReset := true }

/-- The clock was stopped: no request in flight may be taken to survive or to be lost, so every `vld[i]` and `dat[i]`
holds any value (R234; 93 U11). -/
def State.clockStopped (s : State) : State := { s with stages := s.anyStages }

/-- The ports of a caller that has nothing to drive: rst = 0, in_valid = 0, the clock running, the other ports held
(DESIGN CHOICE, log 2). -/
def Pins.idle (p : Pins) : Pins := { p with clk := .rising, rst := false, inValid := false }

/-- The caller drives the ports for the next step, and the step counter advances. -/
def State.present (s : State) : State :=
  match s.inbox with
  | [] => { s with pins := s.pins.idle, cycle := s.cycle + 1 }
  | p :: ps => { s with pins := p, inbox := ps, cycle := s.cycle + 1 }

/-- What a step is (R26, R30, R234). -/
inductive Event where
  /-- The presented request is computed. -/
  | request
  /-- A rising edge with rst = 1. -/
  | reset
  /-- A rising edge with rst = 0 and in_valid = 0. -/
  | bubble
  /-- The clock was stopped. -/
  | stopped
  deriving DecidableEq, Repr

/-- Which step the ports ask for: with LATENCY = 0 always the request on them (R26); with LATENCY ≥ 1 as R30 says, `rst`
before `in_valid` (R240). -/
def State.event (s : State) : Event :=
  match s.stages with
  | [] => .request
  | _ :: _ =>
    match s.pins.clk with
    | .stopped => .stopped
    | .rising => if s.pins.rst then .reset else if s.pins.inValid then .request else .bubble

/-- The packed request on the ports (R60). -/
def Pins.request (p : Pins) : Request := packRequest p.op p.a p.b p.c

/-- The operation on the ports: the decode of `op` with the three operands (R200, R202). -/
def State.fetched (s : State) : Instr := decodeOp s.pins.op s.pins.a s.pins.b s.pins.c

/-- The ports while a packed request is presented. -/
def Pins.presenting (r : Request) : Pins := ⟨.rising, false, true, reqOp r, reqA r, reqB r, reqC r⟩

/-- The ports while the request with the bits of a number is presented (R60). -/
def Pins.presentingNumber (w : Nat) : Pins :=
  ⟨.rising, false, true, BitVec.ofNat 4 w, BitVec.ofNat 128 (w >>> 4), BitVec.ofNat 128 (w >>> 132),
    BitVec.ofNat 128 (w >>> 260)⟩

/-- The caller drives a request in the very next step. -/
def State.withRequest (s : State) (r : Request) : State := { s with inbox := Pins.presenting r :: s.inbox }

/-- `out_valid` = vld[L-1] (R31); none with LATENCY = 0, where the port does not exist (R28). -/
def State.outValid (s : State) : Option Bool := s.stages.getLast?.map (·.vld)

/-- {unsup, res} on the outputs. LATENCY = 0: the core's outputs (R26). LATENCY ≥ 1: dat[L-1] while vld[L-1] = 1, any
value otherwise (R31). -/
def State.outputs (s : State) : Reply :=
  match s.stages.getLast? with
  | none => s.out
  | some st => if st.vld then st.dat else Reply.ofBits (Config.freeOut s.cycle)

/-- The output port `res` (R25). -/
def State.res (s : State) : Block := s.outputs.res

/-- The output port `unsup` (R25). -/
def State.unsup (s : State) : Bool := s.outputs.unsup

/-- A reply as the model records it: `unsup = 1` is a fault, never the value 0 (R210, R222). -/
def Reply.response (r : Reply) : Response := if r.unsup then .fault .unsupportedOperation else .result r.res

/-- The response on the outputs, none while out_valid = 0 (R31). -/
def State.response (s : State) : Option Response :=
  if s.outValid = some false then none else some s.outputs.response

/-- The cause code of a reply: 1 for the unsupported operation, 0 for no exception; the value of `unsup` (R220). -/
def Reply.causeCode (r : Reply) : Nat := r.unsup.toNat

end Sys2Proof.Machine
end

