-- ==== Sys2Proof/Machine/Gf8.lean ====
section
/-! DEFINITION. GF(2^8) arithmetic (40_bitfield_gf8.md R83 to R88). Addition is XOR (R86). -/

namespace Sys2Proof.Machine

/-- `xtime(x)`: times 2 modulo 0x11B, reduction constant 0x1B (R83). -/
def xtime (x : Byte) : Byte := if x.getLsbD 7 then (x <<< 1) ^^^ 0x1B#8 else x <<< 1

/-- `triple(x)`: times 3 (R84). -/
def triple (x : Byte) : Byte := x ^^^ xtime x

/-- The loop variable `t` of `gf8mul` before iteration i: x doubled i times (R85). -/
def gf8Power (x : Byte) : Nat → Byte
  | 0 => x
  | i + 1 => xtime (gf8Power x i)

/-- The loop variable `acc` of `gf8mul` before iteration i (R85). -/
def gf8Acc (x y : Byte) : Nat → Byte
  | 0 => 0
  | i + 1 => if y.getLsbD i then gf8Acc x y i ^^^ gf8Power x i else gf8Acc x y i

/-- `gf8mul(x, y)`: the field product, over all 8 bits of y (R85, 90_conflicts.md C3). -/
def gf8mul (x y : Byte) : Byte := gf8Acc x y 8

end Sys2Proof.Machine
end

