-- ==== Sys2Proof/Machine/BitField.lean ====
section
/-! DEFINITION. The bit-field extractor (40_bitfield_gf8.md R80 to R82). A use must come with the proof of its
precondition, so an ill-formed use is refused when the term is built and has no value. -/

namespace Sys2Proof.Machine

/-- `extract_unsigned(v, N, start, width)` (R80): the field v[start+width-1 : start]. -/
def extractUnsigned {n : Nat} (v : BitVec n) (start width : Nat) (_ok : fieldOk n start width = true) : BitVec width :=
  v.extractLsb' start width

/-- `extract_signed(v, N, start, width)` with an m-bit output (R81): the field, its top bit copied upward. -/
def extractSigned {n : Nat} (v : BitVec n) (start width m : Nat) (_ok : signedFieldOk n start width m = true) :
    BitVec m :=
  (v.extractLsb' start width).signExtend m

end Sys2Proof.Machine
end

