-- ==== Sys2Proof/Machine/Operands.lean ====
section
/-! DEFINITION. How operands are read: bytes, columns, halves (00_scope.md R12, 20_memory.md R43, R44), the byte-string
notation (R13), the round index (30_encoding.md R64). -/

namespace Sys2Proof.Machine

/-- Byte k, bits 8k+7:8k (R12). -/
def byte {n : Nat} (v : BitVec n) (k : Nat) : Byte := v.extractLsb' (8 * k) 8

/-- Column c, or key-schedule word c, bits 32c+31:32c (R12, R44). -/
def col (v : Block) (c : Nat) : Word := v.extractLsb' (32 * c) 32

/-- The 64-bit half h, bits 64h+63:64h (R44). -/
def half (v : Block) (h : Nat) : DWord := v.extractLsb' (64 * h) 64

/-- The word with the given bytes, byte 0 lowest: {b3, b2, b1, b0}. -/
def wordOfBytes (b0 b1 b2 b3 : Byte) : Word := b3 ++ b2 ++ b1 ++ b0

/-- The 64-bit value whose byte i is `f i`. -/
def dwordOfBytes (f : Nat → Byte) : DWord := f 7 ++ f 6 ++ f 5 ++ f 4 ++ f 3 ++ f 2 ++ f 1 ++ f 0

/-- The 128-bit value whose byte k is `f k` (R12). -/
def ofBytes (f : Nat → Byte) : Block :=
  f 15 ++ f 14 ++ f 13 ++ f 12 ++ f 11 ++ f 10 ++ f 9 ++ f 8 ++ f 7 ++ f 6 ++ f 5 ++ f 4 ++ f 3 ++ f 2 ++ f 1 ++ f 0

/-- The 128-bit value {w3, w2, w1, w0} (R44). -/
def ofWords (w0 w1 w2 w3 : Word) : Block := w3 ++ w2 ++ w1 ++ w0

/-- The value a byte string denotes whose first pair is byte 0; the argument is the string read as one hexadecimal number
(R13, 90_conflicts.md C2). -/
def fips (digits : Block) : Block := ofBytes fun k => byte digits (15 - k)

/-- The round index of AESKF1 and AESKF2, c[3:0], unsigned (R64). -/
def rnd (c : Block) : BitVec 4 := extractUnsigned c 0 4 (by decide)

end Sys2Proof.Machine
end

