-- ==== Sys2Proof/Machine/Transforms.lean ====
section
/-! DEFINITION. ShiftRows, SubBytes and MixColumns with their inverses (42_state_transforms.md R120 to R125). -/

namespace Sys2Proof.Machine

/-- `shiftrows(v)`: byte 4i+r of the result is byte 4((i+r) mod 4)+r of v (R120). -/
def shiftrows (v : Block) : Block := ofBytes fun k => byte v (4 * ((k / 4 + k % 4) % 4) + k % 4)

/-- `invshiftrows(v)`: byte 4i+r of the result is byte 4((i-r) mod 4)+r of v, the remainder in 0..3 (R121). -/
def invshiftrows (v : Block) : Block := ofBytes fun k => byte v (4 * ((k / 4 + 4 - k % 4) % 4) + k % 4)

/-- `subbytes(v)` (R122). -/
def subbytes (r : Rom) (v : Block) : Block := ofBytes fun k => sbox8 r (byte v k)

/-- `invsubbytes(v)` (R122). -/
def invsubbytes (r : Rom) (v : Block) : Block := ofBytes fun k => invsbox8 r (byte v k)

/-- Forward MixColumns on one column with bytes a0 to a3 (R124). -/
def mixColumn (w : Word) : Word :=
  let a0 := byte w 0; let a1 := byte w 1; let a2 := byte w 2; let a3 := byte w 3
  wordOfBytes
    (xtime a0 ^^^ triple a1 ^^^ a2 ^^^ a3)
    (a0 ^^^ xtime a1 ^^^ triple a2 ^^^ a3)
    (a0 ^^^ a1 ^^^ xtime a2 ^^^ triple a3)
    (triple a0 ^^^ a1 ^^^ a2 ^^^ xtime a3)

/-- Inverse MixColumns on one column (R125). -/
def invMixColumn (w : Word) : Word :=
  let a0 := byte w 0; let a1 := byte w 1; let a2 := byte w 2; let a3 := byte w 3
  wordOfBytes
    (gf8mul a0 14 ^^^ gf8mul a1 11 ^^^ gf8mul a2 13 ^^^ gf8mul a3 9)
    (gf8mul a0 9 ^^^ gf8mul a1 14 ^^^ gf8mul a2 11 ^^^ gf8mul a3 13)
    (gf8mul a0 13 ^^^ gf8mul a1 9 ^^^ gf8mul a2 14 ^^^ gf8mul a3 11)
    (gf8mul a0 11 ^^^ gf8mul a1 13 ^^^ gf8mul a2 9 ^^^ gf8mul a3 14)

/-- `mixcolumns(v)`: the four columns alike and on their own (R123, R124). -/
def mixcolumns (v : Block) : Block :=
  ofWords (mixColumn (col v 0)) (mixColumn (col v 1)) (mixColumn (col v 2)) (mixColumn (col v 3))

/-- `invmixcolumns(v)` (R123, R125). -/
def invmixcolumns (v : Block) : Block :=
  ofWords (invMixColumn (col v 0)) (invMixColumn (col v 1)) (invMixColumn (col v 2)) (invMixColumn (col v 3))

end Sys2Proof.Machine
end

