-- ==== Sys2Proof/Machine/AesRound.lean ====
section
/-! DEFINITION. The AES round operations (45_aes_round.md R180 to R184): `a` is the state, `b` the round key, `c` is
ignored. -/

namespace Sys2Proof.Machine

/-- The result of AESDM: the round key is XORed before inverse MixColumns (R180). -/
def resAesdm (r : Rom) (a b : Block) : Block := invmixcolumns (invsubbytes r (invshiftrows a) ^^^ b)

/-- The result of AESDF (R181). -/
def resAesdf (r : Rom) (a b : Block) : Block := invsubbytes r (invshiftrows a) ^^^ b

/-- The result of AESEM (R182). -/
def resAesem (r : Rom) (a b : Block) : Block := mixcolumns (shiftrows (subbytes r a)) ^^^ b

/-- The result of AESEF (R183). -/
def resAesef (r : Rom) (a b : Block) : Block := shiftrows (subbytes r a) ^^^ b

/-- The result of AESZ (R184). -/
def resAesz (a b : Block) : Block := a ^^^ b

/-- AESDM (R180). -/
def execAesdm (a b _c : Block) (s : State) : Host.Outcome State Fault Refusal := .next (s.answer (resAesdm s.rom a b))

/-- AESDF (R181). -/
def execAesdf (a b _c : Block) (s : State) : Host.Outcome State Fault Refusal := .next (s.answer (resAesdf s.rom a b))

/-- AESEM (R182). -/
def execAesem (a b _c : Block) (s : State) : Host.Outcome State Fault Refusal := .next (s.answer (resAesem s.rom a b))

/-- AESEF (R183). -/
def execAesef (a b _c : Block) (s : State) : Host.Outcome State Fault Refusal := .next (s.answer (resAesef s.rom a b))

/-- AESZ (R184). -/
def execAesz (a b _c : Block) (s : State) : Host.Outcome State Fault Refusal := .next (s.answer (resAesz a b))

end Sys2Proof.Machine
end

