-- ==== Sys2Proof/Machine/Gf128.lean ====
section
/-! DEFINITION. The GF(2^128) multiplier, GMUL and GHSH (44_gf128.md R160 to R165). -/

namespace Sys2Proof.Machine

/-- `brev8(v)`: the bits of each byte reversed, the bytes in their places (R160). -/
def brev8 (v : Block) : Block := ofBytes fun k => (byte v k).reverse

/-- One step of V in `clmul_reduce`: shift left, and XOR 0x87 if bit 127 was set (R161). -/
def clmulDouble (v : Block) : Block := if v.getLsbD 127 then (v <<< 1) ^^^ 0x87#128 else v <<< 1

/-- The loop variable V before iteration i (R161). -/
def clmulV (h : Block) : Nat → Block
  | 0 => h
  | i + 1 => clmulDouble (clmulV h i)

/-- The loop variable Z before iteration i (R161). -/
def clmulZ (s h : Block) : Nat → Block
  | 0 => 0
  | i + 1 => if s.getLsbD i then clmulZ s h i ^^^ clmulV h i else clmulZ s h i

/-- `clmul_reduce(S, H)`: 128 iterations, always (R161). -/
def clmulReduce (s h : Block) : Block := clmulZ s h 128

/-- `gf128mul(Y, H)` in natural bit order (R162). -/
def gf128mul (y h : Block) : Block := brev8 (clmulReduce (brev8 y) (brev8 h))

/-- The result of GMUL (R164): `a` times `b`. -/
def resGmul (a b : Block) : Block := gf128mul a b

/-- The result of GHSH (R165): `a ^ c` times `b`. -/
def resGhsh (a b c : Block) : Block := gf128mul (a ^^^ c) b

/-- GMUL (R164). -/
def execGmul (a b _c : Block) (s : State) : Host.Outcome State Fault Refusal := .next (s.answer (resGmul a b))

/-- GHSH (R165). -/
def execGhsh (a b c : Block) (s : State) : Host.Outcome State Fault Refusal := .next (s.answer (resGhsh a b c))

end Sys2Proof.Machine
end

