-- ==== Sys2Proof/Machine/KeySchedule.lean ====
section
/-! DEFINITION. The key schedule: rcon, RotWord, the two phases, AESKF1 and AESKF2 (43_key_schedule.md R140 to R148). -/

namespace Sys2Proof.Machine

/-- `rcon(i)`: ten constants, 0 for every other integer (R140). -/
def rcon : Int → Byte
  | .ofNat 0 => 0x01
  | .ofNat 1 => 0x02
  | .ofNat 2 => 0x04
  | .ofNat 3 => 0x08
  | .ofNat 4 => 0x10
  | .ofNat 5 => 0x20
  | .ofNat 6 => 0x40
  | .ofNat 7 => 0x80
  | .ofNat 8 => 0x1B
  | .ofNat 9 => 0x36
  | _ => 0x00

/-- The round constant as it enters a word: zero-extended, in byte 0 (R141). -/
def rconWord (i : Int) : Word := (rcon i).setWidth 32

/-- `rotword(w)` = {w[7:0], w[31:24], w[23:16], w[15:8]} (R142). -/
def rotword (w : Word) : Word := wordOfBytes (byte w 1) (byte w 2) (byte w 3) (byte w 0)

/-- The XOR chain of both phases: w0 = t ^ v0, w1 = w0 ^ v1, w2 = w1 ^ v2, w3 = w2 ^ v3 (R143, R144). -/
def xorChain (t : Word) (v : Block) : Block :=
  let w0 := t ^^^ col v 0
  let w1 := w0 ^^^ col v 1
  let w2 := w1 ^^^ col v 2
  let w3 := w2 ^^^ col v 3
  ofWords w0 w1 w2 w3

/-- `kf1(K, rnd)`, phase 1: the round-constant index is rnd itself (R143, R146). -/
def kf1 (r : Rom) (k : Block) (n : BitVec 4) : Block :=
  xorChain (subword r (rotword (col k 3)) ^^^ rconWord (n.toNat : Int)) k

/-- The word t of phase 2: odd rnd SubWord only, even rnd with RotWord and the round constant of (rnd >> 1) - 1, an
integer in -1..6 (R144, R146). -/
def kf2Word (r : Rom) (k : Block) (n : BitVec 4) : Word :=
  if n.getLsbD 0 then subword r (col k 3)
  else subword r (rotword (col k 3)) ^^^ rconWord (((n >>> 1).toNat : Int) - 1)

/-- `kf2(P, K, rnd)`, phase 2: word 3 from K, the previous key; the chain over P, the key two rounds back (R144). -/
def kf2 (r : Rom) (p k : Block) (n : BitVec 4) : Block := xorChain (kf2Word r k n) p

/-- The result of AESKF1 (R147): `b` is the current round key, c[3:0] the round-constant index. -/
def resAeskf1 (r : Rom) (b c : Block) : Block := kf1 r b (rnd c)

/-- The result of AESKF2 (R148): `a` is the key two rounds back, `b` the previous key, c[3:0] the round number. -/
def resAeskf2 (r : Rom) (a b c : Block) : Block := kf2 r a b (rnd c)

/-- AESKF1 (R147). -/
def execAeskf1 (_a b c : Block) (s : State) : Host.Outcome State Fault Refusal := .next (s.answer (resAeskf1 s.rom b c))

/-- AESKF2 (R148). -/
def execAeskf2 (a b c : Block) (s : State) : Host.Outcome State Fault Refusal := .next (s.answer (resAeskf2 s.rom a b c))

end Sys2Proof.Machine
end

