-- ==== Sys2Proof/Machine/Unsupported.lean ====
section
/-! DEFINITION. The seven unsupported operations (46_dispatch.md R203 to R209): each takes the unsupported-operation
exception (60_exceptions.md R220, R221), whatever its operands. The machine goes on (R221, R228). -/

namespace Sys2Proof.Machine

/-- SM4K, op = 0x9 (R203). -/
def execSm4k (_a _b _c : Block) (s : State) : Host.Outcome State Fault Refusal := .next s.raiseUnsupported

/-- SM4R, op = 0xA (R204). -/
def execSm4r (_a _b _c : Block) (s : State) : Host.Outcome State Fault Refusal := .next s.raiseUnsupported

/-- SM3ME, op = 0xB (R205). -/
def execSm3me (_a _b _c : Block) (s : State) : Host.Outcome State Fault Refusal := .next s.raiseUnsupported

/-- SM3C, op = 0xC (R206). -/
def execSm3c (_a _b _c : Block) (s : State) : Host.Outcome State Fault Refusal := .next s.raiseUnsupported

/-- SHA2MS, op = 0xD (R207). -/
def execSha2ms (_a _b _c : Block) (s : State) : Host.Outcome State Fault Refusal := .next s.raiseUnsupported

/-- SHA2CH, op = 0xE (R208). -/
def execSha2ch (_a _b _c : Block) (s : State) : Host.Outcome State Fault Refusal := .next s.raiseUnsupported

/-- SHA2CL, op = 0xF (R209). -/
def execSha2cl (_a _b _c : Block) (s : State) : Host.Outcome State Fault Refusal := .next s.raiseUnsupported

end Sys2Proof.Machine
end

