-- ==== Sys2Proof/Machine/Dispatch.lean ====
section
/-! DEFINITION. The dispatch of an operation to its meaning (46_dispatch.md R200). -/

namespace Sys2Proof.Machine

def exec (i : Instr) (s : State) : Host.Outcome State Fault Refusal :=
  match i with
  | .aesdm a b c => Sys2Proof.Machine.execAesdm a b c s
  | .aesdf a b c => Sys2Proof.Machine.execAesdf a b c s
  | .aesem a b c => Sys2Proof.Machine.execAesem a b c s
  | .aesef a b c => Sys2Proof.Machine.execAesef a b c s
  | .aesz a b c => Sys2Proof.Machine.execAesz a b c s
  | .gmul a b c => Sys2Proof.Machine.execGmul a b c s
  | .ghsh a b c => Sys2Proof.Machine.execGhsh a b c s
  | .aeskf1 a b c => Sys2Proof.Machine.execAeskf1 a b c s
  | .aeskf2 a b c => Sys2Proof.Machine.execAeskf2 a b c s
  | .sm4k a b c => Sys2Proof.Machine.execSm4k a b c s
  | .sm4r a b c => Sys2Proof.Machine.execSm4r a b c s
  | .sm3me a b c => Sys2Proof.Machine.execSm3me a b c s
  | .sm3c a b c => Sys2Proof.Machine.execSm3c a b c s
  | .sha2ms a b c => Sys2Proof.Machine.execSha2ms a b c s
  | .sha2ch a b c => Sys2Proof.Machine.execSha2ch a b c s
  | .sha2cl a b c => Sys2Proof.Machine.execSha2cl a b c s

end Sys2Proof.Machine
end

