-- ==== Sys2Proof/Machine/Step.lean ====
section
/-! DEFINITION. One step: the caller drives the ports, and the core does what they ask for (10_state.md R26, R30). With
LATENCY = 0 a step is one settled presentation of inputs; with LATENCY ≥ 1 it is one rising edge of clk, or a stretch of
stopped clock. -/

namespace Sys2Proof.Machine

/-- One step of the machine. -/
def step (s : State) : Host.Outcome State Fault Refusal :=
  let p := s.present
  match p.event with
  | .request => exec p.fetched p
  | .reset => .next p.resetEdge
  | .bubble => .next p.bubbleEdge
  | .stopped => .next p.clockStopped

/-- The state whose next drive presents the request with bits `w mod 2^nbits` (numbered as spec/opcode_table.json numbers
them, R60), every bit above zero. -/
def State.withFetchWord (s : State) (nbits w : Nat) : State :=
  { s with inbox := Pins.presentingNumber (w % 2 ^ nbits) :: s.inbox }

end Sys2Proof.Machine
end

