-- ==== Sys2Proof/Machine/Flags.lean ====
section
/-! DEFINITION. The one status output (10_state.md R23): `unsup`. No operation sets any other flag. -/

namespace Sys2Proof.Machine

/-- `unsup` is 1 exactly for op in 0x9..0xF, a function of `op` alone (46_dispatch.md R201). -/
def unsupFlag (op : BitVec 4) : Bool := decide (9 ≤ op.toNat)

/-- `resolve` names a transform exactly for a supported code (R202). -/
def supported (op : BitVec 4) : Bool := !unsupFlag op

end Sys2Proof.Machine
end

