-- ==== Sys2Proof/Machine/Execute.lean ====
section
/-! DEFINITION. `Execute`, the whole function of the core (46_dispatch.md R200), the software interfaces that map onto it
(R202), and the procedures the spec states over requests: the AES key schedules (R149) and the whole cipher (R186). -/

namespace Sys2Proof.Machine

/-- `Execute(op, a, b, c)`: the pair (unsup, res) (R200). The last line is the seven codes 0x9 to 0xF. -/
def execute (r : Rom) (op : BitVec 4) (a b c : Block) : Reply :=
  match op with
  | 0x0#4 => ⟨false, resAesdm r a b⟩
  | 0x1#4 => ⟨false, resAesdf r a b⟩
  | 0x2#4 => ⟨false, resAesem r a b⟩
  | 0x3#4 => ⟨false, resAesef r a b⟩
  | 0x4#4 => ⟨false, resAesz a b⟩
  | 0x5#4 => ⟨false, resGmul a b⟩
  | 0x6#4 => ⟨false, resGhsh a b c⟩
  | 0x7#4 => ⟨false, resAeskf1 r b c⟩
  | 0x8#4 => ⟨false, resAeskf2 r a b c⟩
  | _ => ⟨true, 0⟩

/-- `resolve` then `apply` (R202): the 128-bit result for a supported selector, nothing for an unsupported one. -/
def resolveApply (r : Rom) (op : BitVec 4) (a b c : Block) : Option Block :=
  let reply := execute r op a b c
  if reply.unsup then none else some reply.res

/-- The AES-128 round keys: rk[0] is the cipher key, rk[i+1] = AESKF1(_, rk[i], #i) (R149). -/
def aes128Key (r : Rom) (key : Block) : Nat → Block
  | 0 => key
  | i + 1 => (execute r 0x7 0 (aes128Key r key i) (BitVec.ofNat 128 i)).res

/-- The AES-256 round keys rk[i] and rk[i+1]: rk[0] and rk[1] are the key's halves, rk[i] = AESKF2(rk[i-2], rk[i-1], #i)
(R149). -/
def aes256KeyPair (r : Rom) (lo hi : Block) : Nat → Block × Block
  | 0 => (lo, hi)
  | i + 1 =>
    let p := aes256KeyPair r lo hi i
    (p.2, (execute r 0x8 p.1 p.2 (BitVec.ofNat 128 (i + 2))).res)

/-- The AES-256 round key rk[i] (R149). -/
def aes256Key (r : Rom) (lo hi : Block) (i : Nat) : Block := (aes256KeyPair r lo hi i).1

/-- The state after AESZ with rk[0] and AESEM with rk[1] to rk[n] (R186). -/
def encryptRounds (r : Rom) (rk : Nat → Block) (p : Block) : Nat → Block
  | 0 => (execute r 0x4 p (rk 0) 0).res
  | n + 1 => (execute r 0x2 (encryptRounds r rk p n) (rk (n + 1)) 0).res

/-- Encryption with rk[0..nr], nr ≥ 1 (R186). -/
def encrypt (r : Rom) (rk : Nat → Block) (nr : Nat) (p : Block) : Block :=
  (execute r 0x3 (encryptRounds r rk p (nr - 1)) (rk nr) 0).res

/-- AESDM with rk[n] down to rk[1] (R186). -/
def decryptRounds (r : Rom) (rk : Nat → Block) : Nat → Block → Block
  | 0, s => s
  | n + 1, s => decryptRounds r rk n (execute r 0x0 s (rk (n + 1)) 0).res

/-- Decryption with rk[0..nr], nr ≥ 1: the same round keys in reverse order (R186). -/
def decrypt (r : Rom) (rk : Nat → Block) (nr : Nat) (ct : Block) : Block :=
  (execute r 0x1 (decryptRounds r rk (nr - 1) (execute r 0x4 ct (rk nr) 0).res) (rk 0) 0).res

end Sys2Proof.Machine
end

