-- ==== Sys2Proof/Machine/Script.lean ====
section
/-! DEFINITION. Request scripts (30_encoding.md R67, R68): the caller's lines, the request each is encoded as, and what a
line leaves in the caller's variables. Their text form is notation only (92_eei_decisions.md D16); the syntax here is its
abstract form. -/

namespace Sys2Proof.Machine

/-- An operand of a line (R67). -/
inductive Operand where
  /-- A caller-held variable. -/
  | name (x : String)
  /-- `#n`, n in 0..15, for `c` only: drives c = zext_128(n). -/
  | imm (n : Nat)
  /-- `_`, or an operand left out: drives 0. -/
  | blank
  deriving DecidableEq, Repr

/-- A line of a script (R67). -/
inductive Line where
  /-- `name := value`. -/
  | assign (dest : String) (value : Block)
  /-- `<dest> = <MNEMONIC> <a>, <b>, <c>`. -/
  | request (dest mnemonic : String) (a b c : Operand)
  deriving DecidableEq, Repr

/-- The caller: its variables, and the responses recorded so far, the newest first (R67, R222). -/
structure Caller where
  /-- The variables; the first entry of a name counts. -/
  vars : List (String × Block)
  /-- One entry per request line: a result, or a fault (R222). -/
  record : List Response
  deriving DecidableEq, Repr

/-- Whether an operand may stand in the ports `a` and `b`: no `#n` there (R67). -/
def Operand.okAB : Operand → Bool
  | .imm _ => false
  | _ => true

/-- Whether an operand may stand in the port `c` (R67). -/
def Operand.okC : Operand → Bool
  | .imm n => immOk n
  | _ => true

/-- A line's check (R67): a mnemonic of R61, `#n` in `c` only and in range. -/
def Line.wellFormed : Line → Bool
  | .assign _ _ => true
  | .request _ m a b c => (codeOfMnemonic m).isSome && a.okAB && b.okAB && c.okC

/-- The value an operand drives; none for a variable that was never set (log 12). -/
def Operand.value (vars : List (String × Block)) : Operand → Option Block
  | .name x => vars.lookup x
  | .imm n => some (BitVec.ofNat 128 n)
  | .blank => some 0

/-- The request a line is encoded as: its op code, followed by its operand values (R67). None for an assignment, an ill-formed line
or an unset variable. -/
def Line.encoded (vars : List (String × Block)) (l : Line) : Option Request :=
  if l.wellFormed then
    match l with
    | .assign _ _ => none
    | .request _ m a b c => do
      return packRequest (← codeOfMnemonic m) (← a.value vars) (← b.value vars) (← c.value vars)
  else none

/-- One line run against the core (R67): `<dest>` receives `res`, and the line records the response. A line with no
request leaves the caller as it was. -/
def Caller.run (r : Rom) (k : Caller) (l : Line) : Caller :=
  match l with
  | .assign x v => { k with vars := (x, v) :: k.vars }
  | .request x _ _ _ _ =>
    match l.encoded k.vars with
    | none => k
    | some q =>
      let reply := execute r (reqOp q) (reqA q) (reqB q) (reqC q)
      { vars := (x, reply.res) :: k.vars, record := reply.response :: k.record }

end Sys2Proof.Machine
end

