-- ==== Sys2Proof/Safety.lean ====
section
/-! DEFINITION. What counts as a safe use of the core: requests in the documented domain, dependent requests far enough
apart, results used only when there is one. -/

namespace Sys2Proof.Safety

open Sys2Proof.Machine

/-- D17's domain predicate: AESKF1 with rnd in 0..9, AESKF2 with rnd in 2..14, c[127:4] = 0 for both; every other request
(93_implementation_defined.md U2 to U4). -/
def inDomain : Instr → Bool
  | .aeskf1 _ _ c => decide (c.toNat ≤ 9)
  | .aeskf2 _ _ c => decide (2 ≤ c.toNat) && decide (c.toNat ≤ 14)
  | _ => true

/-- The caller's scoreboard (R245): with LATENCY = L, a request that takes the result of one accepted at edge `producer`
may be accepted at edge `consumer` if at least L edges lie between. -/
def mayIssue (latency producer consumer : Nat) : Bool := decide (producer + latency ≤ consumer)

/-- The caller may use `res` as a result: there is a response, and it is not a fault (R31, R222). -/
def resultUsable (s : State) : Bool :=
  match s.response with
  | some (.result _) => true
  | _ => false

/-- LATENCY = 0: the outputs are Execute of the values on the input ports (R26). -/
def combSettled (s : State) : Prop :=
  s.stages = [] → s.outputs = execute s.rom s.pins.op s.pins.a s.pins.b s.pins.c

/-- Once a reset edge was sampled, a valid stage whose reply says unsupported holds res = 0: no partial value travels with
an unsupported response (R210, R221; before that edge the stages hold any value, R243). -/
def unsupportedHoldsZero (s : State) : Prop :=
  s.wasReset = true → ∀ st ∈ s.stages, st.vld = true → st.dat.unsup = true → st.dat.res = 0

/-- The invariant of the machine: the ROM lists are in canonical form, the combinational outputs are Execute of the ports,
valid unsupported replies of a wrapper that was reset hold 0, and no drive to come stops the clock (after a stopped clock the valid bits and data
registers hold any value, R234). -/
def inv (s : State) : Prop :=
  Rom.wf s.rom = true ∧ combSettled s ∧ unsupportedHoldsZero s ∧ ∀ p ∈ s.inbox, p.clk = .rising

/-- The ports present a request to the wrapper: a rising edge with rst = 0 and in_valid = 1 (R30). -/
def presentsRequest (p : Pins) : Prop := p.clk = .rising ∧ p.rst = false ∧ p.inValid = true

end Sys2Proof.Safety
end

