-- ==== Sys2Proof/Certificates/Slice0/Obligations.lean ====
section
/-! DEFINITION. The statements for the provers. Each docstring names the rule of spec/ the statement formalises. -/

open Sys2Proof Sys2Proof.Machine Sys2Proof.Safety

/-! ## Requests -/

/-- Decoding what was encoded gives the operation back, through the packed request and through its number (R60, R61); and
driving it presents exactly that request. -/
def Obligations.DecodeOfEncode : Prop :=
  ∀ i : Instr, decode (encode i) = i ∧ decodeTableWord 388 (encode i).toNat = some i ∧
    Pins.presentingNumber (encode i).toNat = Pins.presenting (encode i) ∧ (Pins.presenting (encode i)).request = encode i

/-- Every one of the 2^388 packed requests is the encoding of what it decodes to: no bit is dropped (R60, R62). -/
def Obligations.EncodeOfDecode : Prop := ∀ r : Request, encode (decode r) = r

/-- The fields of a request: op in bits 3:0, a in 131:4, b in 259:132, c in 387:260; the operation is read from op alone
(R60). -/
def Obligations.DecodeReadsTheFields : Prop :=
  ∀ r : Request,
    (∀ i < 4, (decode r).code.getLsbD i = r.getLsbD i) ∧
    (∀ i < 128, (decode r).opA.getLsbD i = r.getLsbD (4 + i)) ∧
    (∀ i < 128, (decode r).opB.getLsbD i = r.getLsbD (132 + i)) ∧
    (∀ i < 128, (decode r).opC.getLsbD i = r.getLsbD (260 + i)) ∧
    (∀ r' : Request, reqOp r = reqOp r' → (decode r).code = (decode r').code)

/-- Words written out in 95_test_vectors.md decode to the requests they stand for (P1 lines 1, 11, 12, 21, P2 lines 2, 11,
P3 line 46, P4 line 1, P5 line 33, P6 request D). -/
def Obligations.WrittenWordsDecode : Prop :=
  decode 0x000000000000000000000000000000003C4FCF098815F7ABA6D2AE2816157E2B000000000000000000000000000000007
    = .aeskf1 0 (fips 0x2b7e151628aed2a6abf7158809cf4f3c) 0 ∧
  decode 0x000000000000000000000000000000003C4FCF098815F7ABA6D2AE2816157E2B340737E0A29831318D305A88A8F643324
    = .aesz (fips 0x3243f6a8885a308d313198a2e0370734) (fips 0x2b7e151628aed2a6abf7158809cf4f3c) 0 ∧
  decode 0x0000000000000000000000000000000005766C2A3939A323B12C548817FEFAA00848F8E92A8DC69A2BE2F4A0BEE33D192
    = .aesem (fips 0x193de3bea0f4e22b9ac68d2ae9f84808) (fips 0xa0fafe1788542cb123a339392a6c7605) 0 ∧
  decode 0x00000000000000000000000000000000A60C63B6C80C3FE18925EEC9A8F914D0D242C31BE713A18B84382E591EF240EB3
    = .aesef (fips 0xeb40f21e592e38848ba113e71bc342d2) (fips 0xd014f9a8c9ee2589e13f0cc8b6630ca6) 0 ∧
  decode 0x000000000000000000000000000000006E005C574129D12821DCFA19F36677AC940709AF5F892E3D722C32CBB57D31E90
    = .aesdm (fips 0xe9317db5cb322c723d2e895faf090794) (fips 0xac7766f319fadc2128d12941575c006e) 0 ∧
  decode 0x000000000000000000000000000000003C4FCF098815F7ABA6D2AE2816157E2BE598271EF11141B8AE52B4E0305DBFD41
    = .aesdf (fips 0xd4bf5d30e0b452aeb84111f11e2798e5) (fips 0x2b7e151628aed2a6abf7158809cf4f3c) 0 ∧
  decode 0x800000000000000000000000000000002E2B34CA59FA4C883B2C8AEFD44BE966B7DE535368B0852C8862709146C72E5E6
    = .ghsh (fips 0x5e2ec746917062882c85b0685353deb7) (fips 0x66e94bd4ef8a2c3b884cfa59ca342b2e)
        (fips 0x00000000000000000000000000000080) ∧
  decode 0x000000000000000000000000000000021F1E1D1C1B1A191817161514131211100F0E0D0C0B0A090807060504030201008
    = .aeskf2 (fips 0x000102030405060708090a0b0c0d0e0f) (fips 0x101112131415161718191a1b1c1d1e1f) 2 ∧
  decode 0x00000000000000000000000000000000FFEEDDCCBBAA998877665544332211005AC5B47080B7CDD830047B6AD8E0C469C
    = .sm3c (fips 0x69c4e0d86a7b0430d8cdb78070b4c55a) (fips 0x00112233445566778899aabbccddeeff) 0 ∧
  decode 0x00000000000000000000000000000000000000000000000000000000000000800F0E0D0C0B0A090807060504030201005
    = .gmul (fips 0x000102030405060708090a0b0c0d0e0f) 0x80 0

/-- The model's choice (log 8): a number that needs more than 388 bits is refused by name, every other one decodes. -/
def Obligations.OverlongNumberRefused : Prop :=
  ∀ w : Nat,
    (2 ^ 388 ≤ w ↔ decodeNumber w = .error .longerThanOneRequest) ∧
    (∀ r : Request, r.toNat = w → decodeNumber w = .ok (decode r))

/-- A port marked ignored has no effect: `c` for the round operations and GMUL, `a` for AESKF1, all three for the
unsupported codes (R63). -/
def Obligations.IgnoredPortsHaveNoEffect : Prop :=
  ∀ (a b c a' b' c' : Block) (s : State),
    exec (.aesdm a b c) s = exec (.aesdm a b c') s ∧ exec (.aesdf a b c) s = exec (.aesdf a b c') s ∧
    exec (.aesem a b c) s = exec (.aesem a b c') s ∧ exec (.aesef a b c) s = exec (.aesef a b c') s ∧
    exec (.aesz a b c) s = exec (.aesz a b c') s ∧ exec (.gmul a b c) s = exec (.gmul a b c') s ∧
    exec (.aeskf1 a b c) s = exec (.aeskf1 a' b c) s ∧
    exec (.sm4k a b c) s = exec (.sm4k a' b' c') s ∧ exec (.sm4r a b c) s = exec (.sm4r a' b' c') s ∧
    exec (.sm3me a b c) s = exec (.sm3me a' b' c') s ∧ exec (.sm3c a b c) s = exec (.sm3c a' b' c') s ∧
    exec (.sha2ms a b c) s = exec (.sha2ms a' b' c') s ∧ exec (.sha2ch a b c) s = exec (.sha2ch a' b' c') s ∧
    exec (.sha2cl a b c) s = exec (.sha2cl a' b' c') s

/-- The round index is c mod 16, unsigned, and bits 127:4 of c have no effect on AESKF1 and AESKF2 (R64). -/
def Obligations.RoundIndexIsLowNibbleOfC : Prop :=
  (∀ c : Block, (rnd c).toNat = c.toNat % 16) ∧
  ∀ (a b c c' : Block) (s : State), c.toNat % 16 = c'.toNat % 16 →
    exec (.aeskf1 a b c) s = exec (.aeskf1 a b c') s ∧ exec (.aeskf2 a b c) s = exec (.aeskf2 a b c') s

/-- A request line is encoded as its op code followed by its operand values (R67), for every well-formed line whose
variables are set: `a` and `b` each a variable or left out, `c` a variable, left out, or `#n` with n in 0..15. A variable
drives its value, a left-out operand 0, and `#n` the number n. -/
def Obligations.ScriptLineEncoding : Prop :=
  let drives := fun (vars : List (String × Block)) (o : Operand) (v : Block) =>
    match o with
    | .name x => vars.lookup x = some v
    | .imm n => v.toNat = n
    | .blank => v = 0
  ∀ (vars : List (String × Block)) (dest m : String) (a b c : Operand) (code : BitVec 4) (va vb vc : Block),
    codeOfMnemonic m = some code → (∀ n, a ≠ .imm n) → (∀ n, b ≠ .imm n) → (∀ n, c = .imm n → n ≤ 15) →
    drives vars a va → drives vars b vb → drives vars c vc →
    (Line.request dest m a b c).wellFormed = true ∧
    (Line.request dest m a b c).encoded vars = some (packRequest code va vb vc) ∧ mnemonics[code.toNat]? = some m

/-! ## The machine -/

/-- When the next drive presents a request, the step runs exactly the operation it decodes to (R26, R30, R200). The drive
comes off the model's own inbox onto the ports and the model's own step counter advances (log 1, log 6); with LATENCY = 0
every drive presents a request, whatever it says of clk, rst and in_valid, which do not exist there (log 10). -/
def Obligations.StepRunsDecodedRequest : Prop :=
  ∀ (s : State) (p : Pins) (ps : List Pins), s.inbox = p :: ps → (s.stages = [] ∨ presentsRequest p) →
    step s = exec (decode (packRequest p.op p.a p.b p.c)) { s with pins := p, inbox := ps, cycle := s.cycle + 1 }

/-- No step of the model ends in the host's fault or refusal. The model's choices: an unsupported request is answered by a
next state, and what R222 calls a fault of that request is recorded in its response (log 14); a stopped clock is a step
too (log 7). -/
def Obligations.StepNeverStops : Prop := ∀ s : State, ∃ t, step s = .next t

/-- The dispatch answers Execute of the request for all 16 codes (R200); that it does so by a next state for the seven
unsupported codes too is log 14. -/
def Obligations.ExecAnswersExecute : Prop :=
  ∀ (r : Request) (s : State),
    exec (decode r) s = .next (s.respond (execute s.rom (reqOp r) (reqA r) (reqB r) (reqC r)))

/-- `unsup` is 1 exactly for op in 0x9..0xF, whatever the operands and ROMs (R201); `resolve` and `apply` give a result
exactly for the other codes, and it is Execute's res (R202). -/
def Obligations.UnsupIsAFunctionOfOp : Prop :=
  ∀ (r r' : Rom) (op : BitVec 4) (a b c a' b' c' : Block),
    ((execute r op a b c).unsup = true ↔ 9 ≤ op.toNat ∧ op.toNat ≤ 15) ∧
    (execute r op a b c).unsup = (execute r' op a' b' c').unsup ∧
    unsupFlag op = (execute r op a b c).unsup ∧
    (supported op = false ↔ resolveApply r op a b c = none) ∧
    (supported op = true → resolveApply r op a b c = some (execute r op a b c).res)

/-- LATENCY = 0: after a drive the outputs are Execute of it, whatever the state was before (R26). -/
def Obligations.CombinationalOutputs : Prop :=
  ∀ (s : State) (p : Pins) (ps : List Pins), s.latency = 0 → s.inbox = p :: ps →
    ∃ t, step s = .next t ∧ t.outputs = execute s.rom p.op p.a p.b p.c

/-- The wrapper's step at a rising edge, LATENCY ≥ 1 (R30): with rst = 1 every valid bit is cleared; with rst = 0, once the
wrapper was reset as R243 asks, the stages shift, vld[0] takes in_valid, and dat[0] takes Execute of the operands if
in_valid = 1. Inputs that are not sampled have no effect on any valid bit or on the data of a valid stage: op, a, b, c
where in_valid = 0 or rst = 1, and in_valid where rst = 1. -/
def Obligations.WrapperEdge : Prop :=
  ∀ (s : State) (p q : Pins) (ps : List Pins), 1 ≤ s.latency → s.inbox = p :: ps → p.clk = .rising →
    (p.rst = true → ∃ t, step s = .next t ∧ t.latency = s.latency ∧ ∀ st ∈ t.stages, st.vld = false) ∧
    (s.wasReset = true → p.rst = false → ∃ t, step s = .next t ∧ t.latency = s.latency ∧
      (∀ i, i + 1 < s.latency → t.stages[i + 1]? = s.stages[i]?) ∧
      ∃ st, t.stages[0]? = some st ∧ st.vld = p.inValid ∧
        (p.inValid = true → st.dat = execute s.rom p.op p.a p.b p.c)) ∧
    (q.clk = .rising → (p.rst = true ∧ q.rst = true ∨
        s.wasReset = true ∧ p.rst = false ∧ q.rst = false ∧ p.inValid = false ∧ q.inValid = false) →
      let seen := fun st : Stage => if st.vld then some st.dat else none
      ∃ t t', step s = .next t ∧ step { s with inbox := q :: ps } = .next t' ∧
        t.stages.map seen = t'.stages.map seen)

/-- The wrapper's outputs, LATENCY = L ≥ 1 (R31): out_valid is vld[L-1]; when it is 1, {unsup, res} is dat[L-1]; a reset
sampled at any of the L-1 edges after the one that accepted a request discards it, and at its time there is no response.
(R31's inference on when a response arrives is WrapperDelivers.) -/
def Obligations.WrapperOutputs : Prop :=
  (∀ s : State, 1 ≤ s.latency → ∃ st, s.stages[s.latency - 1]? = some st ∧ s.outValid = some st.vld ∧
    (st.vld = true → s.outputs = st.dat ∧ s.response = some st.dat.response)) ∧
  ∀ (s : State) (p : Pins) (ps rest : List Pins), ps.length + 1 = s.latency → s.inbox = p :: (ps ++ rest) →
    presentsRequest p → (∀ q ∈ ps, q.clk = .rising) → (∃ q ∈ ps, q.rst = true) →
    ∃ t : State, Host.Core.run Sys2Proof.core s.latency s = .next t ∧ t.outValid = some false ∧ t.response = none

/-- Once the wrapper was reset (R243), a request accepted at one edge is on the outputs after L-1 further edges, valid, and
equals Execute of the operands sampled, if no reset is sampled at those edges. (This is the sentence of R31 that the spec
marks as derived from R30.) -/
def Obligations.WrapperDelivers : Prop :=
  ∀ (s : State) (p : Pins) (ps rest : List Pins), ps.length + 1 = s.latency → s.wasReset = true →
    s.inbox = p :: (ps ++ rest) → presentsRequest p → (∀ q ∈ ps, q.clk = .rising ∧ q.rst = false) →
    ∃ t : State, Host.Core.run Sys2Proof.core s.latency s = .next t ∧ t.outValid = some true ∧
      t.outputs = execute s.rom p.op p.a p.b p.c ∧
      t.response = some (execute s.rom p.op p.a p.b p.c).response

/-- Equal requests get equal replies whatever the steps between did, resets and a stopped clock among them (R33, R50). With
LATENCY ≥ 1 this is said of the reply that enters stage 0 of a wrapper that was reset (R243); WrapperDelivers says where it
goes. The request is presented through the model's own inbox (log 1). -/
def Obligations.EqualRequestsEqualReplies : Prop :=
  ∀ (s t : State) (k : Nat) (r : Request), Host.Core.run Sys2Proof.core k s = .next t →
    ∃ s' t', step (s.withRequest r) = .next s' ∧ step (t.withRequest r) = .next t' ∧
      (s.latency = 0 → s'.outputs = t'.outputs) ∧
      (1 ≤ s.latency → s.wasReset = true → ∃ st, s'.stages[0]? = some st ∧ t'.stages[0]? = some st)

/-- Where a response goes: LATENCY = 0, onto the outputs at once, where out_valid does not exist (log 10); LATENCY ≥ 1, into
stage 0, valid, once the wrapper was reset (R243). A reply with unsup = 1 is read as a fault of cause 1 and never as a
result (log 14), one with unsup = 0 as its result, cause 0 (R210, R220, R222). -/
def Obligations.ReplyPlacedAndRead : Prop :=
  (∀ (s : State) (r : Reply), s.latency = 0 →
    (s.respond r).outputs = r ∧ (s.respond r).outValid = none ∧ (s.respond r).response = some r.response) ∧
  (∀ (s : State) (r : Reply), 1 ≤ s.latency → s.wasReset = true → (s.respond r).stages[0]? = some ⟨true, r⟩) ∧
  ∀ r : Reply,
    (r.unsup = true → r.response = .fault .unsupportedOperation ∧ r.causeCode = 1) ∧
    (r.unsup = false → r.response = .result r.res ∧ r.causeCode = 0)

/-- THE FRAME of all 16 operations: the ROMs (every byte reads as before), the ports, the drives to come, the step counter,
whether a reset was sampled, and LATENCY are unchanged (the last five but the ports are the model's own fields: log 1, 3, 6,
15); with LATENCY ≥ 1 the combinational outputs' field is unchanged and, once the wrapper was reset, stage i+1 is stage i of
before, so only stage 0 is new (before that edge every stage holds any value, R243). -/
def Obligations.ExecFrame : Prop :=
  ∀ (i : Instr) (s t : State), exec i s = .next t →
    t.rom = s.rom ∧ (∀ sp x, memRead t.rom sp x = memRead s.rom sp x) ∧
    t.pins = s.pins ∧ t.inbox = s.inbox ∧ t.cycle = s.cycle ∧ t.wasReset = s.wasReset ∧ t.latency = s.latency ∧
    (1 ≤ s.latency → t.out = s.out ∧
      (s.wasReset = true → ∀ k, k + 1 < s.latency → t.stages[k + 1]? = s.stages[k]?))

/-- What every step does to the model's own fields, which are its choices: the next drive leaves the inbox and goes onto the
ports (log 1), the step counter advances by one (log 6), the number of stages, which is LATENCY, is unchanged (log 3), and
a wrapper that was reset stays so (log 15). The spec's core has no counter (R230). -/
def Obligations.StepFrame : Prop :=
  ∀ s t : State, step s = .next t →
    t.latency = s.latency ∧ t.cycle = s.cycle + 1 ∧ t.inbox = s.inbox.tail ∧
    (s.wasReset = true → t.wasReset = true) ∧ (∀ p ps, s.inbox = p :: ps → t.pins = p)

/-- No step writes a memory: every byte of both ROMs reads as before (R42). -/
def Obligations.NoStepWritesMemory : Prop :=
  ∀ s t : State, step s = .next t → ∀ sp x, memRead t.rom sp x = memRead s.rom sp x

/-- The invariant is kept by every step, from every state that meets it. Its clause on the drives to come, that none stops
the clock, is there because of the model's choice for a stopped clock (log 7), and its clause on replies speaks of a wrapper
that was reset (R243, log 15). -/
def Obligations.StepKeepsInvariant : Prop := ∀ s t : State, inv s → step s = .next t → inv t

/-- The invariant holds after reset, for every LATENCY, and at power-up. Its clause on the combinational outputs rests on the
port values the model chose for reset (log 4). -/
def Obligations.ResetMeetsInvariant : Prop :=
  inv State.reset ∧ ∀ L, inv (State.resetAt L) ∧ inv (State.powerUp L)

/-- The reset values of R32: the ROMs hold the tables of R100 and R101; LATENCY = L valid bits, all 0, so out_valid = 0;
with LATENCY = 0 the outputs are Execute of the ports. The model's choices: the host's reset state has the default LATENCY,
0 (log 3), and the ports, which have no reset value, hold the values of log 4, on which the last clause rests. -/
def Obligations.ResetValues : Prop :=
  State.reset = State.resetAt 0 ∧
  ∀ L : Nat, (State.resetAt L).latency = L ∧
    (∀ x : Byte, memRead (State.resetAt L).rom .sbox x = (sboxRows.getD (x.toNat / 16) []).getD (x.toNat % 16) 0 ∧
      memRead (State.resetAt L).rom .invsbox x = (invsboxRows.getD (x.toNat / 16) []).getD (x.toNat % 16) 0) ∧
    (∀ st ∈ (State.resetAt L).stages, st.vld = false) ∧
    (1 ≤ L → (State.resetAt L).outValid = some false) ∧
    (L = 0 → (State.resetAt L).outputs = execute Rom.reset (State.resetAt L).pins.op (State.resetAt L).pins.a
      (State.resetAt L).pins.b (State.resetAt L).pins.c)

/-- Before the first reset edge a step other than that edge leaves every vld[i] and dat[i] a free value, from power-up on
and however many steps were taken (R243; the form is log 15's). One edge with rst = 1 is enough, from any state: no request
is in flight after it, the wrapper counts as reset, and the ROMs read as before it, from power-up as the tables (R240, R241,
R243). -/
def Obligations.OneResetEdgeIsEnough : Prop :=
  (∀ L : Nat, (State.powerUp L).wasReset = false ∧ (State.powerUp L).latency = L) ∧
  (∀ (s : State) (p : Pins) (ps : List Pins), 1 ≤ s.latency → s.wasReset = false → s.inbox = p :: ps →
    (p.clk = .stopped ∨ p.rst = false) →
    ∃ t, step s = .next t ∧ t.wasReset = false ∧ ∀ i, i < s.latency →
      t.stages[i]? = some ⟨Config.freeVld t.cycle i, Reply.ofBits (Config.freeDat t.cycle i)⟩) ∧
  (∀ (s : State) (p : Pins) (ps : List Pins), 1 ≤ s.latency → s.inbox = p :: ps → p.clk = .rising → p.rst = true →
    ∃ t, step s = .next t ∧ t.outValid = some false ∧ t.response = none ∧ (∀ st ∈ t.stages, st.vld = false) ∧
      t.wasReset = true ∧ t.rom = s.rom) ∧
  ∀ (L : Nat) (p : Pins), 1 ≤ L → p.clk = .rising → p.rst = true →
    ∃ t, step { State.powerUp L with inbox := [p] } = .next t ∧ t.outValid = some false ∧
      (∀ sp x, memRead t.rom sp x = romConstant sp x)

/-! ## Units -/

/-- The bit-field extractor (R80, R81): bit i of the unsigned field is bit start+i of the value; the signed field is the
same number read as two's complement, in m bits; the corner cases and examples of the two rules. -/
def Obligations.BitFieldExtractor : Prop :=
  (∀ (n : Nat) (v : BitVec n) (start width : Nat) (h : fieldOk n start width = true) (i : Nat),
    (extractUnsigned v start width h).getLsbD i = (decide (i < width) && v.getLsbD (start + i))) ∧
  (∀ (n : Nat) (v : BitVec n) (start width m : Nat) (h : fieldOk n start width = true)
    (h' : signedFieldOk n start width m = true),
    (extractSigned v start width m h').toInt = (extractUnsigned v start width h).toInt) ∧
  (∀ (n : Nat) (v : BitVec n) (h : fieldOk n 0 n = true), extractUnsigned v 0 n h = v) ∧
  (∀ (n : Nat) (v : BitVec n) (start m : Nat) (h : signedFieldOk n start 1 m = true),
    extractSigned v start 1 m h = if v.getLsbD start then BitVec.allOnes m else 0) ∧
  (∀ h, extractUnsigned 0xABCD#16 4 8 h = 0xBC) ∧ (∀ h, extractSigned 0x00F0#16 4 4 8 h = 0xFF)

/-- Bytes, words and halves are views of one value (20_memory.md section 2; the spec marks its view rule as derived from
its byte numbering), and {w3, w2, w1, w0} has w0 in bits 31:0 and w3 in 127:96. -/
def Obligations.NarrowerViews : Prop :=
  (∀ (v : Block) (j i : Fin 4), byte (col v j) i = byte v (4 * j + i)) ∧
  (∀ (v : Block) (h : Fin 2) (i : Fin 8), byte (half v h) i = byte v (8 * h + i)) ∧
  ∀ w0 w1 w2 w3 : Word, (ofWords w0 w1 w2 w3).toNat =
    w0.toNat + 2 ^ 32 * w1.toNat + 2 ^ 64 * w2.toNat + 2 ^ 96 * w3.toNat

/-- xtime and triple (R83, R84) with their corner cases and examples. -/
def Obligations.XtimeAndTriple : Prop :=
  (∀ x : Byte, (128 ≤ x.toNat → (xtime x).toNat = (2 * x.toNat % 256) ^^^ 0x1B) ∧
    (x.toNat < 128 → (xtime x).toNat = 2 * x.toNat) ∧ triple x = x ^^^ xtime x) ∧
  xtime 0x00 = 0x00 ∧ xtime 0x80 = 0x1B ∧ xtime 0xFF = 0xE5 ∧ xtime 0x57 = 0xAE ∧
  triple 0x00 = 0x00 ∧ triple 0x80 = 0x9B ∧ triple 0xFF = 0x1A ∧ triple 0x57 = 0xF9

/-- The laws of the GF(2^8) unit (R87); that a product lies in 0..255 is its type. -/
def Obligations.Gf8FieldLaws : Prop :=
  (∀ x y : Byte, (gf8mul x y).toNat ≤ 255 ∧ gf8mul x y = gf8mul y x) ∧
  (∀ x y z : Byte, gf8mul (gf8mul x y) z = gf8mul x (gf8mul y z)) ∧
  ∀ x : Byte, xtime x = gf8mul x 2 ∧ triple x = gf8mul x 3

/-- The two tables are inverse permutations (R107). -/
def Obligations.TablesAreInverse : Prop :=
  (∀ y : Byte, ∃ x, sbox8 Rom.reset x = y ∧ ∀ x', sbox8 Rom.reset x' = y → x' = x) ∧
  ∀ x : Byte, invsbox8 Rom.reset (sbox8 Rom.reset x) = x ∧ sbox8 Rom.reset (invsbox8 Rom.reset x) = x

/-- The affine definition of the S-box (R106): SBOX[0] = A(0), and SBOX[x] = A(y) for the y with gf8mul(x, y) = 1, which
every x but 0 has; INVSBOX is its inverse permutation. -/
def Obligations.SboxIsAffineOfInverse : Prop :=
  sbox8 Rom.reset 0 = sboxAffine 0 ∧
  (∀ x : Byte, x ≠ 0 → ∃ y, gf8mul x y = 1) ∧
  (∀ x y : Byte, gf8mul x y = 1 → sbox8 Rom.reset x = sboxAffine y) ∧
  (∀ x y : Byte, sbox8 Rom.reset x = y ↔ invsbox8 Rom.reset y = x)

/-- Word and double-word substitution keeps byte positions (R104, R105); the examples of the two rules. -/
def Obligations.WordSubstitution : Prop :=
  (∀ (r : Rom) (w : Word) (j : Fin 4), byte (subword r w) j = sbox8 r (byte w j) ∧
    byte (invsubword r w) j = invsbox8 r (byte w j)) ∧
  (∀ (r : Rom) (d : DWord) (i : Fin 8), byte (sbox64 r d) i = sbox8 r (byte d i) ∧
    byte (invsbox64 r d) i = invsbox8 r (byte d i)) ∧
  subword Rom.reset 0x00000000 = 0x63636363 ∧ invsubword Rom.reset 0x63636363 = 0x00000000 ∧
  subword Rom.reset 0x093C4FCF = 0x01EB848A ∧
  sbox64 Rom.reset 0x0123456789ABCDEF = 0x7C266E85A762BDDF ∧
  invsbox64 Rom.reset 0x7C266E85A762BDDF = 0x0123456789ABCDEF

/-- SubBytes is the double-word substitution of both halves, and substitution by the other table undoes it in words and
double words. (Sentences of R105 and R107 that the spec marks as derived.) -/
def Obligations.SubstitutionLaws : Prop :=
  (∀ (r : Rom) (v : Block) (h : Fin 2), half (subbytes r v) h = sbox64 r (half v h) ∧
    half (invsubbytes r v) h = invsbox64 r (half v h)) ∧
  (∀ w : Word, invsubword Rom.reset (subword Rom.reset w) = w) ∧
  ∀ d : DWord, invsbox64 Rom.reset (sbox64 Rom.reset d) = d

/-- ShiftRows and its inverse move whole bytes (R120, R121): the formulas, row 0, and the examples. -/
def Obligations.ShiftRowsMoveBytes : Prop :=
  (∀ (v : Block) (i r : Fin 4),
    byte (shiftrows v) (4 * i + r) = byte v (4 * ((i.val + r.val) % 4) + r) ∧
    byte (invshiftrows v) (4 * i + r) = byte v (4 * (((i.val : Int) - r.val) % 4).toNat + r) ∧
    byte (shiftrows v) (4 * i) = byte v (4 * i) ∧ byte (invshiftrows v) (4 * i) = byte v (4 * i)) ∧
  shiftrows 0x0F0E0D0C0B0A09080706050403020100 = 0x0B06010C07020D08030E09040F0A0500 ∧
  invshiftrows 0x0F0E0D0C0B0A09080706050403020100 = 0x0306090C0F0205080B0E0104070A0D00

/-- The source-byte tables SR and ISR of the two networks. (R120 and R121 mark them as derived from their formulas.) -/
def Obligations.ShiftRowsSourceTables : Prop :=
  ∀ (v : Block) (k : Fin 16),
    byte (shiftrows v) k = byte v ([0, 5, 10, 15, 4, 9, 14, 3, 8, 13, 2, 7, 12, 1, 6, 11].getD k 0) ∧
    byte (invshiftrows v) k = byte v ([0, 13, 10, 7, 4, 1, 14, 11, 8, 5, 2, 15, 12, 9, 6, 3].getD k 0)

/-- SubBytes and its inverse substitute each byte in its place (R122); the corner cases and the example. -/
def Obligations.SubBytesKeepPositions : Prop :=
  (∀ (r : Rom) (v : Block) (k : Fin 16), byte (subbytes r v) k = sbox8 r (byte v k) ∧
    byte (invsubbytes r v) k = invsbox8 r (byte v k)) ∧
  subbytes Rom.reset 0 = 0x63636363636363636363636363636363 ∧
  invsubbytes Rom.reset 0 = 0x52525252525252525252525252525252 ∧
  subbytes Rom.reset (fips 0x193de3bea0f4e22b9ac68d2ae9f84808) = fips 0xd42711aee0bf98f1b8b45de51e415230

/-- Forward MixColumns, column by column (R123, R124): the four output bytes of each column, a column of equal bytes, the
corner cases and the example. -/
def Obligations.MixColumnsPerColumn : Prop :=
  (∀ (v : Block) (i : Fin 4),
    let a := fun r : Nat => byte (col v i) r
    byte (col (mixcolumns v) i) 0 = xtime (a 0) ^^^ triple (a 1) ^^^ a 2 ^^^ a 3 ∧
    byte (col (mixcolumns v) i) 1 = a 0 ^^^ xtime (a 1) ^^^ triple (a 2) ^^^ a 3 ∧
    byte (col (mixcolumns v) i) 2 = a 0 ^^^ a 1 ^^^ xtime (a 2) ^^^ triple (a 3) ∧
    byte (col (mixcolumns v) i) 3 = triple (a 0) ^^^ a 1 ^^^ a 2 ^^^ xtime (a 3)) ∧
  (∀ (v w : Block) (i : Fin 4), col v i = col w i → col (mixcolumns v) i = col (mixcolumns w) i) ∧
  (∀ (v : Block) (i : Fin 4) (x : Byte), (∀ r : Fin 4, byte (col v i) r = x) → col (mixcolumns v) i = col v i) ∧
  mixcolumns 0 = 0 ∧ mixcolumns (BitVec.allOnes 128) = BitVec.allOnes 128 ∧
  ∀ (v : Block) (i : Fin 4), col v i = 0x455313DB → col (mixcolumns v) i = 0xBCA14D8E

/-- Inverse MixColumns, column by column (R125): the four output bytes, a column of equal bytes, the example. (R125's
inference on other arrangements is InverseMatrixIsTheOnlyOne.) -/
def Obligations.InvMixColumnsPerColumn : Prop :=
  (∀ (v : Block) (i : Fin 4),
    let a := fun r : Nat => byte (col v i) r
    byte (col (invmixcolumns v) i) 0 = gf8mul (a 0) 14 ^^^ gf8mul (a 1) 11 ^^^ gf8mul (a 2) 13 ^^^ gf8mul (a 3) 9 ∧
    byte (col (invmixcolumns v) i) 1 = gf8mul (a 0) 9 ^^^ gf8mul (a 1) 14 ^^^ gf8mul (a 2) 11 ^^^ gf8mul (a 3) 13 ∧
    byte (col (invmixcolumns v) i) 2 = gf8mul (a 0) 13 ^^^ gf8mul (a 1) 9 ^^^ gf8mul (a 2) 14 ^^^ gf8mul (a 3) 11 ∧
    byte (col (invmixcolumns v) i) 3 = gf8mul (a 0) 11 ^^^ gf8mul (a 1) 13 ^^^ gf8mul (a 2) 9 ^^^ gf8mul (a 3) 14) ∧
  (∀ (v : Block) (i : Fin 4) (x : Byte), (∀ r : Fin 4, byte (col v i) r = x) → col (invmixcolumns v) i = col v i) ∧
  ∀ (v : Block) (i : Fin 4), col v i = 0xBCA14D8E → col (invmixcolumns v) i = 0x455313DB

/-- Of the 24 orders of the coefficients 9, 11, 13, 14 as a first row, with each later row rotated one place to the right,
only 14, 11, 13, 9 undoes forward MixColumns on every column; with the rows rotated to the left none does. (The sentence of
R125 that the spec marks as derived.) -/
def Obligations.InverseMatrixIsTheOnlyOne : Prop :=
  ∀ m0 m1 m2 m3 : Byte, [m0, m1, m2, m3].Perm [9, 11, 13, 14] →
    let row := fun (c0 c1 c2 c3 : Byte) (w : Word) =>
      gf8mul (byte w 0) c0 ^^^ gf8mul (byte w 1) c1 ^^^ gf8mul (byte w 2) c2 ^^^ gf8mul (byte w 3) c3
    ((∀ w : Word, let x := mixColumn w
        wordOfBytes (row m0 m1 m2 m3 x) (row m3 m0 m1 m2 x) (row m2 m3 m0 m1 x) (row m1 m2 m3 m0 x) = w) ↔
      [m0, m1, m2, m3] = [14, 11, 13, 9]) ∧
    ∃ w : Word, let x := mixColumn w
      wordOfBytes (row m0 m1 m2 m3 x) (row m1 m2 m3 m0 x) (row m2 m3 m0 m1 x) (row m3 m0 m1 m2 x) ≠ w

/-- The round-trip laws of the three transforms; MixColumns commutes with neither of the other two (R126). -/
def Obligations.TransformRoundTrips : Prop :=
  (∀ x : Block, invshiftrows (shiftrows x) = x ∧ invsubbytes Rom.reset (subbytes Rom.reset x) = x ∧
    invmixcolumns (mixcolumns x) = x) ∧
  (∃ x : Block, mixcolumns (shiftrows x) ≠ shiftrows (mixcolumns x)) ∧
  ∃ x : Block, mixcolumns (subbytes Rom.reset x) ≠ subbytes Rom.reset (mixcolumns x)

/-- The three transforms undo their inverses as well, and ShiftRows and SubBytes commute. (The two sentences of R126 that
the spec marks as derived.) -/
def Obligations.TransformsTheOtherWayRound : Prop :=
  (∀ x : Block, shiftrows (invshiftrows x) = x ∧ subbytes Rom.reset (invsubbytes Rom.reset x) = x ∧
    mixcolumns (invmixcolumns x) = x) ∧
  ∀ (r : Rom) (x : Block), shiftrows (subbytes r x) = subbytes r (shiftrows x)

/-- A round key may be added before inverse MixColumns, or its own inverse MixColumns after: the unit is linear. (The
sentence of R180 that the spec marks as derived.) -/
def Obligations.InvMixColumnsIsLinear : Prop :=
  (∀ x y : Block, invmixcolumns (x ^^^ y) = invmixcolumns x ^^^ invmixcolumns y) ∧
  ∀ (r : Rom) (a b : Block), resAesdm r a b = invmixcolumns (invsubbytes r (invshiftrows a)) ^^^ invmixcolumns b

/-- The round-constant decode over all integers: ten constants, and 0 elsewhere (R140). -/
def Obligations.RoundConstants : Prop :=
  [rcon 0, rcon 1, rcon 2, rcon 3, rcon 4, rcon 5, rcon 6, rcon 7, rcon 8, rcon 9]
    = [0x01, 0x02, 0x04, 0x08, 0x10, 0x20, 0x40, 0x80, 0x1B, 0x36] ∧
  ∀ i : Int, i < 0 ∨ 9 < i → rcon i = 0x00

/-- The round constant reaches byte 0 of a word only (R141); RotWord is the rotation by 8 bits to the right, byte 0 to the
top (R142). -/
def Obligations.RoundConstantWordAndRotWord : Prop :=
  (∀ (i : Int) (w : Word), (rconWord i).toNat = (rcon i).toNat ∧ byte (w ^^^ rconWord i) 0 = byte w 0 ^^^ rcon i ∧
    byte (w ^^^ rconWord i) 1 = byte w 1 ∧ byte (w ^^^ rconWord i) 2 = byte w 2 ∧
    byte (w ^^^ rconWord i) 3 = byte w 3) ∧
  (∀ w : Word, rotword w = w.extractLsb' 0 8 ++ w.extractLsb' 24 8 ++ w.extractLsb' 16 8 ++ w.extractLsb' 8 8 ∧
    rotword w = w.rotateRight 8) ∧
  rotword 0x3C4FCF09 = 0x093C4FCF

/-- Each round constant is xtime of the one before; each byte of RotWord's result is the next byte of the word. (The
sentences of R140 and R142 that the spec marks as derived.) -/
def Obligations.KeyScheduleUnitLaws : Prop :=
  (∀ i : Int, 0 ≤ i → i ≤ 8 → rcon (i + 1) = xtime (rcon i)) ∧
  ∀ w : Word, byte (rotword w) 0 = byte w 1 ∧ byte (rotword w) 1 = byte w 2 ∧
    byte (rotword w) 2 = byte w 3 ∧ byte (rotword w) 3 = byte w 0

/-- Per-byte bit reversal, bit by bit; the examples and fixed values (R160). -/
def Obligations.BitReversalPerByte : Prop :=
  (∀ (v : Block) (k : Fin 16) (j : Fin 8), (brev8 v).getLsbD (8 * k + j) = v.getLsbD (8 * k + 7 - j)) ∧
  brev8 0x01 = 0x80 ∧ brev8 0x0102030405060708090A0B0C0D0E0F10 = 0x8040C020A060E0109050D030B070F008 ∧
  brev8 0 = 0 ∧ brev8 (BitVec.allOnes 128) = BitVec.allOnes 128

/-- gf128mul is commutative and associative, distributes over XOR, has 0 and the identity 0x80; per-byte bit reversal is
its own inverse. (The properties of R163, but for its equality with the GCM standard's multiplication, and the sentence of
R160: the spec marks both as derived.) -/
def Obligations.Gf128FieldLaws : Prop :=
  (∀ x y : Block, gf128mul x y = gf128mul y x) ∧
  (∀ x y z : Block, gf128mul (gf128mul x y) z = gf128mul x (gf128mul y z)) ∧
  (∀ x y z : Block, gf128mul x (y ^^^ z) = gf128mul x y ^^^ gf128mul x z ∧
    gf128mul (x ^^^ y) z = gf128mul x z ^^^ gf128mul y z) ∧
  ∀ x : Block, gf128mul x 0 = 0 ∧ gf128mul 0 x = 0 ∧ gf128mul x 0x80 = x ∧ gf128mul 0x80 x = x ∧ brev8 (brev8 x) = x

/-! ## Operations: each completes in every state, with its result -/

/-- AESDM (R180): completes in every state with unsup 0; the result by its formula and byte by byte; the corner case and the
example. (R180's inference on the round key is InvMixColumnsIsLinear.) -/
def Obligations.AesdmResult : Prop :=
  (∀ (a b c : Block) (s : State), ∃ v, exec (.aesdm a b c) s = .next (s.answer v) ∧
    v = invmixcolumns (invsubbytes s.rom (invshiftrows a) ^^^ b) ∧
    ∀ i : Fin 4,
      let t := fun r : Nat => invsbox8 s.rom (byte a (4 * ((i.val + 4 - r) % 4) + r)) ^^^ byte b (4 * i + r)
      byte v (4 * i) = gf8mul (t 0) 14 ^^^ gf8mul (t 1) 11 ^^^ gf8mul (t 2) 13 ^^^ gf8mul (t 3) 9 ∧
      byte v (4 * i + 1) = gf8mul (t 0) 9 ^^^ gf8mul (t 1) 14 ^^^ gf8mul (t 2) 11 ^^^ gf8mul (t 3) 13 ∧
      byte v (4 * i + 2) = gf8mul (t 0) 13 ^^^ gf8mul (t 1) 9 ^^^ gf8mul (t 2) 14 ^^^ gf8mul (t 3) 11 ∧
      byte v (4 * i + 3) = gf8mul (t 0) 11 ^^^ gf8mul (t 1) 13 ^^^ gf8mul (t 2) 9 ^^^ gf8mul (t 3) 14) ∧
  ∀ (c : Block) (s : State), s.rom = Rom.reset →
    exec (.aesdm 0 0 c) s = .next (s.answer 0x52525252525252525252525252525252) ∧
    exec (.aesdm (fips 0xe9317db5cb322c723d2e895faf090794) (fips 0xac7766f319fadc2128d12941575c006e) c) s
      = .next (s.answer (fips 0x876e46a6f24ce78c4d904ad897ecc395))

/-- AESDF (R181): completes in every state with unsup 0; the result by its formula and byte by byte; the corner cases and
the example. -/
def Obligations.AesdfResult : Prop :=
  (∀ (a b c : Block) (s : State), ∃ v, exec (.aesdf a b c) s = .next (s.answer v) ∧
    v = invsubbytes s.rom (invshiftrows a) ^^^ b ∧ (b = 0 → v = invsubbytes s.rom (invshiftrows a)) ∧
    ∀ i r : Fin 4, byte v (4 * i + r) =
      invsbox8 s.rom (byte a (4 * ((i.val + 4 - r.val) % 4) + r)) ^^^ byte b (4 * i + r)) ∧
  ∀ (c : Block) (s : State), s.rom = Rom.reset →
    exec (.aesdf 0 0 c) s = .next (s.answer 0x52525252525252525252525252525252) ∧
    exec (.aesdf (fips 0xd4bf5d30e0b452aeb84111f11e2798e5) (fips 0x2b7e151628aed2a6abf7158809cf4f3c) c) s
      = .next (s.answer (fips 0x3243f6a8885a308d313198a2e0370734))

/-- AESEM (R182): completes in every state with unsup 0; the result by its formula and byte by byte; the corner cases and
the example. -/
def Obligations.AesemResult : Prop :=
  (∀ (a b c : Block) (s : State), ∃ v, exec (.aesem a b c) s = .next (s.answer v) ∧
    v = mixcolumns (shiftrows (subbytes s.rom a)) ^^^ b ∧
    ∀ i : Fin 4,
      let t := fun r : Nat => sbox8 s.rom (byte a (4 * ((i.val + r) % 4) + r))
      byte v (4 * i) = xtime (t 0) ^^^ triple (t 1) ^^^ t 2 ^^^ t 3 ^^^ byte b (4 * i) ∧
      byte v (4 * i + 1) = t 0 ^^^ xtime (t 1) ^^^ triple (t 2) ^^^ t 3 ^^^ byte b (4 * i + 1) ∧
      byte v (4 * i + 2) = t 0 ^^^ t 1 ^^^ xtime (t 2) ^^^ triple (t 3) ^^^ byte b (4 * i + 2) ∧
      byte v (4 * i + 3) = triple (t 0) ^^^ t 1 ^^^ t 2 ^^^ xtime (t 3) ^^^ byte b (4 * i + 3)) ∧
  ∀ (c : Block) (s : State), s.rom = Rom.reset →
    exec (.aesem 0 0 c) s = .next (s.answer 0x63636363636363636363636363636363) ∧
    exec (.aesem (fips 0x000102030405060708090a0b0c0d0e0f) 0 c) s
      = .next (s.answer (fips 0x6a6a5c452c6d3351b0d95d61279c215c)) ∧
    exec (.aesem (fips 0x193de3bea0f4e22b9ac68d2ae9f84808) (fips 0xa0fafe1788542cb123a339392a6c7605) c) s
      = .next (s.answer (fips 0xa49c7ff2689f352b6b5bea43026a5049))

/-- AESEF (R183): completes in every state with unsup 0; the result by its formula and byte by byte; the corner cases and
the example. -/
def Obligations.AesefResult : Prop :=
  (∀ (a b c : Block) (s : State), ∃ v, exec (.aesef a b c) s = .next (s.answer v) ∧
    v = shiftrows (subbytes s.rom a) ^^^ b ∧
    ∀ i r : Fin 4, byte v (4 * i + r) =
      sbox8 s.rom (byte a (4 * ((i.val + r.val) % 4) + r)) ^^^ byte b (4 * i + r)) ∧
  ∀ (c : Block) (s : State), s.rom = Rom.reset →
    exec (.aesef 0 0 c) s = .next (s.answer 0x63636363636363636363636363636363) ∧
    exec (.aesef (fips 0x000102030405060708090a0b0c0d0e0f) 0 c) s
      = .next (s.answer (fips 0x636b6776f201ab7b30d777c5fe7c6f2b)) ∧
    exec (.aesef (fips 0xeb40f21e592e38848ba113e71bc342d2) (fips 0xd014f9a8c9ee2589e13f0cc8b6630ca6) c) s
      = .next (s.answer (fips 0x3925841d02dc09fbdc118597196a0b32))

/-- AESZ (R184): completes in every state with unsup 0; the result is the XOR, bit by bit; the corner cases and the
example. -/
def Obligations.AeszResult : Prop :=
  ∀ (a b c : Block) (s : State), ∃ v, exec (.aesz a b c) s = .next (s.answer v) ∧
    (∀ i < 128, v.getLsbD i = (a.getLsbD i != b.getLsbD i)) ∧ (a = b → v = 0) ∧ (b = 0 → v = a) ∧
    (a = 0 → b = 0x01010101010101010101010101010101 → v = 0x01010101010101010101010101010101)

/-- GMUL (R164): completes in every state with unsup 0; the result is the Galois product; the corner cases and the
example. -/
def Obligations.GmulResult : Prop :=
  ∀ (a b c : Block) (s : State), ∃ v, exec (.gmul a b c) s = .next (s.answer v) ∧ v = gf128mul a b ∧
    (a = 0 ∨ b = 0 → v = 0) ∧ (a = 0x80 → v = b) ∧
    (a = 0x01000000000000000000000000000000 → b = 0x40 → v = 0xE1) ∧
    (a = 0x01000000000000000000000000000000 → b = a → v = 0x030000000000000000000000000008E6) ∧
    (a = BitVec.allOnes 128 → b = a → v = 0xAAAAAAAAAAAAAAAAAAAAAAAAAAAA02F4) ∧
    (a = fips 0x0388dace60b6a392f328c2b971b2fe78 → b = fips 0x66e94bd4ef8a2c3b884cfa59ca342b2e →
      v = fips 0x5e2ec746917062882c85b0685353deb7)

/-- GHSH (R165): completes in every state with unsup 0; the result is the Galois product of a ^ c and b; the corner cases
and the two examples. -/
def Obligations.GhshResult : Prop :=
  ∀ (a b c : Block) (s : State), ∃ v, exec (.ghsh a b c) s = .next (s.answer v) ∧
    v = brev8 (clmulReduce (brev8 (a ^^^ c)) (brev8 b)) ∧
    (c = 0 → exec (.ghsh a b c) s = exec (.gmul a b c) s) ∧ (a = c → v = 0) ∧ (b = 0 → v = 0) ∧
    (b = 0x80 → v = a ^^^ c) ∧
    (a = 0 → b = fips 0x66e94bd4ef8a2c3b884cfa59ca342b2e → c = fips 0x0388dace60b6a392f328c2b971b2fe78 →
      v = fips 0x5e2ec746917062882c85b0685353deb7) ∧
    (a = fips 0x5e2ec746917062882c85b0685353deb7 → b = fips 0x66e94bd4ef8a2c3b884cfa59ca342b2e →
      c = fips 0x00000000000000000000000000000080 → v = fips 0xf38cbb1ad69223dcc3457ae5b6b0f885)

/-- AESKF1 (R143, R147): completes in every state with unsup 0; the four words of the result for every b and c; no round
constant for rnd in 10..15; the corner cases and the example. -/
def Obligations.Aeskf1Result : Prop :=
  (∀ (a b c : Block) (s : State), ∃ v, exec (.aeskf1 a b c) s = .next (s.answer v) ∧
    col v 0 = subword s.rom (rotword (col b 3)) ^^^ (rcon (c.toNat % 16 : Nat)).setWidth 32 ^^^ col b 0 ∧
    col v 1 = col v 0 ^^^ col b 1 ∧ col v 2 = col v 1 ^^^ col b 2 ∧ col v 3 = col v 2 ^^^ col b 3 ∧
    (10 ≤ c.toNat % 16 → col v 0 = subword s.rom (rotword (col b 3)) ^^^ col b 0)) ∧
  ∀ (a : Block) (s : State), s.rom = Rom.reset →
    exec (.aeskf1 a 0 0) s = .next (s.answer 0x63636362636363626363636263636362) ∧
    exec (.aeskf1 a 0 10) s = .next (s.answer 0x63636363636363636363636363636363) ∧
    exec (.aeskf1 a (fips 0x2b7e151628aed2a6abf7158809cf4f3c) 10) s
      = .next (s.answer 0x05766C2B3939A322B12C548917FEFAA1) ∧
    exec (.aeskf1 a (fips 0x2b7e151628aed2a6abf7158809cf4f3c) 15) s
      = .next (s.answer 0x05766C2B3939A322B12C548917FEFAA1) ∧
    exec (.aeskf1 a (fips 0x2b7e151628aed2a6abf7158809cf4f3c) 0) s
      = .next (s.answer 0x05766C2A3939A323B12C548817FEFAA0)

/-- AESKF2 (R144, R148): completes in every state with unsup 0; the four words of the result for odd and for even rnd; every
odd rnd alike; the corner cases and the examples. -/
def Obligations.Aeskf2Result : Prop :=
  (∀ (a b c : Block) (s : State), ∃ v, exec (.aeskf2 a b c) s = .next (s.answer v) ∧
    (c.toNat % 2 = 1 → col v 0 = subword s.rom (col b 3) ^^^ col a 0) ∧
    (c.toNat % 2 = 0 → col v 0 = subword s.rom (rotword (col b 3)) ^^^
      (rcon (((c.toNat % 16 / 2 : Nat) : Int) - 1)).setWidth 32 ^^^ col a 0) ∧
    (c.toNat % 16 = 0 → col v 0 = subword s.rom (rotword (col b 3)) ^^^ col a 0) ∧
    (c.toNat % 16 = 14 → col v 0 = subword s.rom (rotword (col b 3)) ^^^ 0x40 ^^^ col a 0) ∧
    col v 1 = col v 0 ^^^ col a 1 ∧ col v 2 = col v 1 ^^^ col a 2 ∧ col v 3 = col v 2 ^^^ col a 3) ∧
  (∀ (a b c c' : Block) (s : State), c.toNat % 2 = 1 → c'.toNat % 2 = 1 →
    exec (.aeskf2 a b c) s = exec (.aeskf2 a b c') s) ∧
  ∀ s : State, s.rom = Rom.reset →
    exec (.aeskf2 0 0 0) s = .next (s.answer 0x63636363636363636363636363636363) ∧
    exec (.aeskf2 0 0 1) s = .next (s.answer 0x63636363636363636363636363636363) ∧
    exec (.aeskf2 0 0 2) s = .next (s.answer 0x63636362636363626363636263636362) ∧
    exec (.aeskf2 (fips 0x000102030405060708090a0b0c0d0e0f) (fips 0x101112131415161718191a1b1c1d1e1f) 2) s
      = .next (s.answer (fips 0xa573c29fa176c498a97fce93a572c09c)) ∧
    exec (.aeskf2 (fips 0x000102030405060708090a0b0c0d0e0f) (fips 0x101112131415161718191a1b1c1d1e1f) 3) s
      = .next (s.answer (fips 0x9ca570c398a076c490a97ccf9ca472c0))

/-- The seven unsupported operations (R203 to R209): each raises the unsupported-operation exception in every state, for all
operands: unsup 1, res 0, nothing else of the state changed (R221). That this is a next state is log 14. With LATENCY = 0
the response is at once read as a fault (R222); with LATENCY ≥ 1 only the stages change and, once the wrapper was reset
(R243), it enters stage 0 as any other. -/
def Obligations.UnsupportedOperations : Prop :=
  ∀ (a b c : Block) (s : State) (i : Instr),
    i ∈ [Instr.sm4k a b c, .sm4r a b c, .sm3me a b c, .sm3c a b c, .sha2ms a b c, .sha2ch a b c, .sha2cl a b c] →
    ∃ t, exec i s = .next t ∧ t = s.respond ⟨true, 0⟩ ∧
      (s.latency = 0 → t = { s with out := ⟨true, 0⟩ } ∧ t.unsup = true ∧ t.res = 0 ∧
        t.response = some (.fault .unsupportedOperation)) ∧
      (1 ≤ s.latency → t = { s with stages := t.stages } ∧
        (s.wasReset = true → t.stages[0]? = some ⟨true, ⟨true, 0⟩⟩))

/-! ## Compositions -/

/-- One round is not undone by one round: the two counterexamples, and the true inverses of one AESEM and one AESEF step.
(R185, whose counterexamples and inverses the spec marks as derived.) -/
def Obligations.OneRoundIsNotUndone : Prop :=
  resAesdm Rom.reset (resAesem Rom.reset (fips 0x000102030405060708090a0b0c0d0e0f) 0) 0
    = fips 0xaf88138d942ec4c714cad140ddc631fc ∧
  resAesdf Rom.reset (resAesef Rom.reset (fips 0x000102030405060708090a0b0c0d0e0f) 0x01010101010101010101010101010101)
      0x01010101010101010101010101010101 = fips 0xaa120ebc7f5944892f53d2947c4b6303 ∧
  (∃ x k, resAesdm Rom.reset (resAesem Rom.reset x k) k ≠ x) ∧
  (∃ x k, resAesdf Rom.reset (resAesef Rom.reset x k) k ≠ x) ∧
  ∀ x k : Block,
    x = invsubbytes Rom.reset (invshiftrows (invmixcolumns (resAesem Rom.reset x k ^^^ k))) ∧
    x = invsubbytes Rom.reset (invshiftrows (resAesef Rom.reset x k ^^^ k))

/-- The whole cipher is undone by its decryption with the same round keys in reverse order, for every plaintext, every
sequence of round keys and every number of rounds from 1 on, AES-128's ten and AES-256's fourteen among them. (R186,
which the spec marks as derived.) -/
def Obligations.WholeCipherRoundTrip : Prop :=
  ∀ (rk : Nat → Block) (nr : Nat) (p : Block), 1 ≤ nr → decrypt Rom.reset rk nr (encrypt Rom.reset rk nr p) = p

/-- The round keys of R149, which the spec marks as derived, by the core's key-schedule units: rk[i+1] = kf1(rk[i], i) for AES-128, i = 0..9, and
rk[i+2] = kf2(rk[i], rk[i+1], i+2) for AES-256, i = 0..12, each from its cipher key. -/
def Obligations.RoundKeySchedules : Prop :=
  (∀ (r : Rom) (key : Block), aes128Key r key 0 = key ∧
    ∀ i : Fin 10, aes128Key r key (i + 1) = kf1 r (aes128Key r key i) (BitVec.ofNat 4 i)) ∧
  ∀ (r : Rom) (lo hi : Block), aes256Key r lo hi 0 = lo ∧ aes256Key r lo hi 1 = hi ∧
    ∀ i : Fin 13, aes256Key r lo hi (i + 2) =
      kf2 r (aes256Key r lo hi i) (aes256Key r lo hi (i + 1)) (BitVec.ofNat 4 (i + 2))
end

