-- ==== Sys2Proof/Laws/Bytes.lean ====
section
/-! SUPPORT. Reading back what was put together: bytes of a value built of bytes, columns of a value built of words, and a
value is what its bytes are. -/

namespace Sys2Proof.Laws

open Sys2Proof.Machine

/-- The bytes of a value built byte by byte. -/
theorem byte_ofBytes (f : Nat → Byte) (k : Nat) (hk : k < 16) : byte (ofBytes f) k = f k := by
  apply BitVec.eq_of_getLsbD_eq
  intro i hi
  interval_cases k <;>
    simp only [byte, ofBytes, BitVec.getLsbD_extractLsb', BitVec.getLsbD_append, hi, decide_true, Bool.true_and] <;>
    (interval_cases i <;> rfl)

/-- The columns of a value built word by word. -/
theorem col_ofWords (w0 w1 w2 w3 : Word) :
    col (ofWords w0 w1 w2 w3) 0 = w0 ∧ col (ofWords w0 w1 w2 w3) 1 = w1 ∧ col (ofWords w0 w1 w2 w3) 2 = w2 ∧
      col (ofWords w0 w1 w2 w3) 3 = w3 := by
  refine ⟨?_, ?_, ?_, ?_⟩ <;>
  · apply BitVec.eq_of_getLsbD_eq
    intro i hi
    simp only [col, ofWords, BitVec.getLsbD_extractLsb', BitVec.getLsbD_append, hi, decide_true, Bool.true_and]
    interval_cases i <;> rfl

/-- The bytes of a word built byte by byte. -/
theorem byte_wordOfBytes (b0 b1 b2 b3 : Byte) :
    byte (wordOfBytes b0 b1 b2 b3) 0 = b0 ∧ byte (wordOfBytes b0 b1 b2 b3) 1 = b1 ∧
      byte (wordOfBytes b0 b1 b2 b3) 2 = b2 ∧ byte (wordOfBytes b0 b1 b2 b3) 3 = b3 := by
  refine ⟨?_, ?_, ?_, ?_⟩ <;>
  · apply BitVec.eq_of_getLsbD_eq
    intro i hi
    simp only [byte, wordOfBytes, BitVec.getLsbD_extractLsb', BitVec.getLsbD_append, hi, decide_true, Bool.true_and]
    interval_cases i <;> rfl

/-- A 128-bit value is what its 16 bytes are. -/
theorem eq_of_bytes {v w : Block} (h : ∀ k < 16, byte v k = byte w k) : v = w := by
  apply BitVec.eq_of_getLsbD_eq
  intro i hi
  have hb := congrArg (fun x : Byte => x.getLsbD (i % 8)) (h (i / 8) (by omega))
  have hm : i % 8 < 8 := Nat.mod_lt _ (by omega)
  simpa [byte, hm, Nat.div_add_mod] using hb

/-- XOR acts on each byte. -/
@[simp] theorem byte_xor {n : Nat} (v w : BitVec n) (k : Nat) : byte (v ^^^ w) k = byte v k ^^^ byte w k := by
  apply BitVec.eq_of_getLsbD_eq
  intro i hi
  simp [byte, hi]

/-- Byte i of word j of a value is its byte 4j+i (R44). -/
theorem byte_col (v : Block) (j i : Nat) (hi : i < 4) : byte (col v j) i = byte v (4 * j + i) := by
  apply BitVec.eq_of_getLsbD_eq
  intro b hb
  have h : 8 * i + b < 32 := by omega
  have e : 32 * j + (8 * i + b) = 8 * (4 * j + i) + b := by omega
  simp [byte, col, hb, h, e]

end Sys2Proof.Laws
end

