-- ==== Sys2Proof/Laws/State.lean ====
section
/-! SUPPORT. One lemma per field and state update, so that no proof unfolds a record update. -/

namespace Sys2Proof.Laws

open Sys2Proof.Machine

@[simp] theorem bubbleEdge_rom (s : State) : s.bubbleEdge.rom = s.rom := rfl

@[simp] theorem bubbleEdge_pins (s : State) : s.bubbleEdge.pins = s.pins := rfl

@[simp] theorem bubbleEdge_inbox (s : State) : s.bubbleEdge.inbox = s.inbox := rfl

@[simp] theorem bubbleEdge_out (s : State) : s.bubbleEdge.out = s.out := rfl

@[simp] theorem bubbleEdge_cycle (s : State) : s.bubbleEdge.cycle = s.cycle := rfl

@[simp] theorem bubbleEdge_wasReset (s : State) : s.bubbleEdge.wasReset = s.wasReset := rfl

@[simp] theorem resetEdge_rom (s : State) : s.resetEdge.rom = s.rom := rfl

@[simp] theorem resetEdge_pins (s : State) : s.resetEdge.pins = s.pins := rfl

@[simp] theorem resetEdge_inbox (s : State) : s.resetEdge.inbox = s.inbox := rfl

@[simp] theorem resetEdge_out (s : State) : s.resetEdge.out = s.out := rfl

@[simp] theorem resetEdge_cycle (s : State) : s.resetEdge.cycle = s.cycle := rfl

@[simp] theorem resetEdge_wasReset (s : State) : s.resetEdge.wasReset = true := rfl

@[simp] theorem clockStopped_rom (s : State) : s.clockStopped.rom = s.rom := rfl

@[simp] theorem clockStopped_pins (s : State) : s.clockStopped.pins = s.pins := rfl

@[simp] theorem clockStopped_inbox (s : State) : s.clockStopped.inbox = s.inbox := rfl

@[simp] theorem clockStopped_out (s : State) : s.clockStopped.out = s.out := rfl

@[simp] theorem clockStopped_cycle (s : State) : s.clockStopped.cycle = s.cycle := rfl

@[simp] theorem clockStopped_wasReset (s : State) : s.clockStopped.wasReset = s.wasReset := rfl

@[simp] theorem clockStopped_stages (s : State) : s.clockStopped.stages = s.anyStages := rfl

@[simp] theorem withRequest_rom (s : State) (r : Request) : (s.withRequest r).rom = s.rom := rfl

@[simp] theorem withRequest_pins (s : State) (r : Request) : (s.withRequest r).pins = s.pins := rfl

@[simp] theorem withRequest_inbox (s : State) (r : Request) :
    (s.withRequest r).inbox = Pins.presenting r :: s.inbox := rfl

@[simp] theorem withRequest_out (s : State) (r : Request) : (s.withRequest r).out = s.out := rfl

@[simp] theorem withRequest_stages (s : State) (r : Request) : (s.withRequest r).stages = s.stages := rfl

@[simp] theorem withRequest_cycle (s : State) (r : Request) : (s.withRequest r).cycle = s.cycle := rfl

@[simp] theorem withRequest_wasReset (s : State) (r : Request) : (s.withRequest r).wasReset = s.wasReset := rfl

/-- An edge with rst = 0 once a reset was sampled (R30). -/
theorem shiftIn_of_wasReset {s : State} (h : s.wasReset = true) (new : Stage) :
    s.shiftIn new = { s with stages := shiftStages new s.stages } := by simp [State.shiftIn, h]

/-- An edge with rst = 0 before the first reset edge (R243). -/
theorem shiftIn_of_not_wasReset {s : State} (h : s.wasReset = false) (new : Stage) :
    s.shiftIn new = { s with stages := s.anyStages } := by simp [State.shiftIn, h]

@[simp] theorem respond_rom (s : State) (r : Reply) : (s.respond r).rom = s.rom := by
  unfold State.respond; split <;> rfl

@[simp] theorem respond_pins (s : State) (r : Reply) : (s.respond r).pins = s.pins := by
  unfold State.respond; split <;> rfl

@[simp] theorem respond_inbox (s : State) (r : Reply) : (s.respond r).inbox = s.inbox := by
  unfold State.respond; split <;> rfl

@[simp] theorem respond_cycle (s : State) (r : Reply) : (s.respond r).cycle = s.cycle := by
  unfold State.respond; split <;> rfl

@[simp] theorem respond_wasReset (s : State) (r : Reply) : (s.respond r).wasReset = s.wasReset := by
  unfold State.respond; split <;> rfl

/-- LATENCY = 0: the response is on the outputs at once (R26). -/
theorem respond_of_no_stages {s : State} (h : s.stages = []) (r : Reply) : s.respond r = { s with out := r } := by
  simp [State.respond, h]

/-- LATENCY ≥ 1: the response is an edge with rst = 0 and a valid stage 0 (R30, R243). -/
theorem respond_of_stages {s : State} (h : s.stages ≠ []) (r : Reply) : s.respond r = s.shiftIn ⟨true, r⟩ := by
  unfold State.respond; split
  · contradiction
  · rfl

@[simp] theorem present_rom (s : State) : s.present.rom = s.rom := by
  unfold State.present; split <;> rfl

@[simp] theorem present_out (s : State) : s.present.out = s.out := by
  unfold State.present; split <;> rfl

@[simp] theorem present_stages (s : State) : s.present.stages = s.stages := by
  unfold State.present; split <;> rfl

@[simp] theorem present_wasReset (s : State) : s.present.wasReset = s.wasReset := by
  unfold State.present; split <;> rfl

@[simp] theorem present_cycle (s : State) : s.present.cycle = s.cycle + 1 := by
  unfold State.present; split <;> rfl

/-- The next drive goes onto the ports. -/
theorem present_cons {s : State} {p : Pins} {ps : List Pins} (h : s.inbox = p :: ps) :
    s.present = { s with pins := p, inbox := ps, cycle := s.cycle + 1 } := by
  simp [State.present, h]

/-- With nothing to drive the caller is idle (log 2). -/
theorem present_nil {s : State} (h : s.inbox = []) :
    s.present = { s with pins := s.pins.idle, cycle := s.cycle + 1 } := by
  simp [State.present, h]

/-- The drives still to come after a step are those after the first. -/
theorem present_inbox (s : State) : s.present.inbox = s.inbox.tail := by
  unfold State.present; split <;> simp_all

end Sys2Proof.Laws
end

