-- ==== Sys2Proof/Laws/Ops.lean ====
section
/-! SUPPORT. What each shared operation, `exec` and `step` can do, said once. -/

namespace Sys2Proof.Laws

open Sys2Proof.Machine

/-- A shift keeps the number of stages. -/
@[simp] theorem length_shiftStages (new : Stage) (l : List Stage) : (shiftStages new l).length = l.length := by
  simp [shiftStages]

/-- Stage 0 after a shift. -/
theorem shiftStages_zero (new : Stage) {l : List Stage} (h : l ≠ []) : (shiftStages new l)[0]? = some new := by
  cases l with
  | nil => contradiction
  | cons a l => simp [shiftStages]

/-- Stage i+1 after a shift is stage i before (R30). -/
theorem shiftStages_succ (new : Stage) (l : List Stage) (i : Nat) (h : i + 1 < l.length) :
    (shiftStages new l)[i + 1]? = l[i]? := by
  rw [shiftStages, List.getElem?_dropLast]
  simp [h]

/-- What a shift leaves is the new stage or a stage that was there. -/
theorem mem_shiftStages {new st : Stage} {l : List Stage} (h : st ∈ shiftStages new l) : st = new ∨ st ∈ l := by
  simpa using List.mem_of_mem_dropLast h

/-- Stage i where every register holds any value (R234, R243). -/
theorem getElem?_anyStages (s : State) (i : Nat) (h : i < s.stages.length) :
    s.anyStages[i]? = some ⟨Config.freeVld s.cycle i, Reply.ofBits (Config.freeDat s.cycle i)⟩ := by
  simp [State.anyStages, h]

/-- LATENCY is the same when every register holds any value. -/
@[simp] theorem length_anyStages (s : State) : s.anyStages.length = s.stages.length := by simp [State.anyStages]

/-- LATENCY is the same after an edge with rst = 0. -/
@[simp] theorem length_shiftIn (new : Stage) (s : State) : (s.shiftIn new).stages.length = s.stages.length := by
  simp only [State.shiftIn]; split <;> simp

/-- LATENCY is the same after a response. -/
@[simp] theorem length_respond (s : State) (r : Reply) : (s.respond r).stages.length = s.stages.length := by
  unfold State.respond; split <;> simp_all

@[simp] theorem length_bubbleEdge (s : State) : s.bubbleEdge.stages.length = s.stages.length := by
  simp [State.bubbleEdge]

@[simp] theorem length_resetEdge (s : State) : s.resetEdge.stages.length = s.stages.length := by
  simp [State.resetEdge]

@[simp] theorem length_clockStopped (s : State) : s.clockStopped.stages.length = s.stages.length := by
  simp [State.clockStopped]

/-- After a reset edge no valid bit is set (R240). -/
theorem vld_of_mem_resetEdge {s : State} {st : Stage} (h : st ∈ s.resetEdge.stages) : st.vld = false := by
  simp only [State.resetEdge, List.mem_mapIdx] at h
  obtain ⟨i, hi, rfl⟩ := h
  rfl

/-- Every operation answers with a response: `exec` never stops. -/
theorem exec_responds (i : Instr) (s : State) : ∃ r, exec i s = .next (s.respond r) := by
  cases i <;> exact ⟨_, rfl⟩

/-- Everything a step can do, over the state with the next drive on the ports. -/
theorem step_cases (s : State) :
    (s.present.event = .request ∧ step s = exec s.present.fetched s.present) ∨
    (s.present.event = .reset ∧ step s = .next s.present.resetEdge) ∨
    (s.present.event = .bubble ∧ step s = .next s.present.bubbleEdge) ∨
    (s.present.event = .stopped ∧ step s = .next s.present.clockStopped) := by
  cases h : s.present.event <;> simp [step, h]

/-- With LATENCY = 0 every step is a request (R26). -/
theorem event_of_no_stages {s : State} (h : s.stages = []) : s.event = .request := by
  simp [State.event, h]

/-- With LATENCY ≥ 1 the ports decide (R30, R240). -/
theorem event_of_stages {s : State} (h : s.stages ≠ []) :
    s.event = match s.pins.clk with
      | .stopped => .stopped
      | .rising => if s.pins.rst then .reset else if s.pins.inValid then .request else .bubble := by
  unfold State.event; split
  · contradiction
  · rfl

end Sys2Proof.Laws
end

