-- ==== Sys2Proof/Laws/Request.lean ====
section
/-! SUPPORT. The four fields of a packed request read back (30_encoding.md R60). -/

namespace Sys2Proof.Laws

/-- What was packed at bits 3:0. -/
theorem reqOp_pack (op : BitVec 4) (a b c : Block) : reqOp (packRequest op a b c) = op := by
  apply BitVec.eq_of_getLsbD_eq
  intro i hi
  have h : (0 + i : Nat) = i := Nat.zero_add i
  simp only [reqOp, packRequest, BitVec.getLsbD_extractLsb', BitVec.getLsbD_append, hi, h, decide_true, Bool.true_and,
    if_true]

/-- What was packed at bits 131:4. -/
theorem reqA_pack (op : BitVec 4) (a b c : Block) : reqA (packRequest op a b c) = a := by
  apply BitVec.eq_of_getLsbD_eq
  intro i hi
  have h1 : ¬ 4 + i < 4 := by omega
  have h2 : 4 + i - 4 = i := by omega
  simp only [reqA, packRequest, BitVec.getLsbD_append, BitVec.getLsbD_extractLsb', hi, h1, h2, decide_true,
    Bool.true_and, if_true, if_false]

/-- What was packed at bits 259:132. -/
theorem reqB_pack (op : BitVec 4) (a b c : Block) : reqB (packRequest op a b c) = b := by
  apply BitVec.eq_of_getLsbD_eq
  intro i hi
  have h1 : ¬ 132 + i < 4 := by omega
  have h2 : ¬ 132 + i - 4 < 128 := by omega
  have h3 : 132 + i - 4 - 128 = i := by omega
  simp only [reqB, packRequest, BitVec.getLsbD_append, BitVec.getLsbD_extractLsb', hi, h1, h2, h3, decide_true,
    Bool.true_and, if_true, if_false]

/-- What was packed at bits 387:260. -/
theorem reqC_pack (op : BitVec 4) (a b c : Block) : reqC (packRequest op a b c) = c := by
  apply BitVec.eq_of_getLsbD_eq
  intro i hi
  have h1 : ¬ 260 + i < 4 := by omega
  have h2 : ¬ 260 + i - 4 < 128 := by omega
  have h3 : ¬ 260 + i - 4 - 128 < 128 := by omega
  have h4 : 260 + i - 4 - 128 - 128 = i := by omega
  simp only [reqC, packRequest, BitVec.getLsbD_append, BitVec.getLsbD_extractLsb', hi, h1, h2, h3, h4, decide_true,
    Bool.true_and, if_false]

/-- A request is what its four fields are. -/
theorem packRequest_fields (r : Request) : packRequest (reqOp r) (reqA r) (reqB r) (reqC r) = r := by
  apply BitVec.eq_of_getLsbD_eq
  intro i hi
  simp only [packRequest, reqOp, reqA, reqB, reqC, BitVec.getLsbD_append, BitVec.getLsbD_extractLsb']
  by_cases h1 : i < 4
  · simp [h1]
  · by_cases h2 : i - 4 < 128
    · simp [h1, h2, show 4 + (i - 4) = i by omega]
    · by_cases h3 : i - 4 - 128 < 128
      · simp [h1, h2, h3, show 132 + (i - 4 - 128) = i by omega]
      · simp [h1, h2, h3, show i - 4 - 128 - 128 < 128 by omega, show 260 + (i - 4 - 128 - 128) = i by omega]

end Sys2Proof.Laws
end

