-- ==== Sys2Proof/Laws/PerInstr.lean ====
section
/-! SUPPORT. Statements made per instruction: the four fields of an encoded request (30_encoding.md R60). -/

namespace Sys2Proof.Laws

/-- The `op` field of an encoded operation is the operation's code (R60, R61). -/
def OpField.Statement (i : Instr) : Prop := reqOp (encode i) = i.code

theorem OpField.aesdm (a b c : Block) : OpField.Statement (.aesdm a b c) := reqOp_pack _ a b c

theorem OpField.aesdf (a b c : Block) : OpField.Statement (.aesdf a b c) := reqOp_pack _ a b c

theorem OpField.aesem (a b c : Block) : OpField.Statement (.aesem a b c) := reqOp_pack _ a b c

theorem OpField.aesef (a b c : Block) : OpField.Statement (.aesef a b c) := reqOp_pack _ a b c

theorem OpField.aesz (a b c : Block) : OpField.Statement (.aesz a b c) := reqOp_pack _ a b c

theorem OpField.gmul (a b c : Block) : OpField.Statement (.gmul a b c) := reqOp_pack _ a b c

theorem OpField.ghsh (a b c : Block) : OpField.Statement (.ghsh a b c) := reqOp_pack _ a b c

theorem OpField.aeskf1 (a b c : Block) : OpField.Statement (.aeskf1 a b c) := reqOp_pack _ a b c

theorem OpField.aeskf2 (a b c : Block) : OpField.Statement (.aeskf2 a b c) := reqOp_pack _ a b c

theorem OpField.sm4k (a b c : Block) : OpField.Statement (.sm4k a b c) := reqOp_pack _ a b c

theorem OpField.sm4r (a b c : Block) : OpField.Statement (.sm4r a b c) := reqOp_pack _ a b c

theorem OpField.sm3me (a b c : Block) : OpField.Statement (.sm3me a b c) := reqOp_pack _ a b c

theorem OpField.sm3c (a b c : Block) : OpField.Statement (.sm3c a b c) := reqOp_pack _ a b c

theorem OpField.sha2ms (a b c : Block) : OpField.Statement (.sha2ms a b c) := reqOp_pack _ a b c

theorem OpField.sha2ch (a b c : Block) : OpField.Statement (.sha2ch a b c) := reqOp_pack _ a b c

theorem OpField.sha2cl (a b c : Block) : OpField.Statement (.sha2cl a b c) := reqOp_pack _ a b c

end Sys2Proof.Laws
end

