-- ==== Sys2Proof/Laws/Rom.lean ====
section
/-! SUPPORT. The ROMs: their canonical form at reset and under every operation on the state. Reading is the only operation
on a ROM (20_memory.md R41, R42), and it changes nothing. -/

namespace Sys2Proof.Laws

open Sys2Proof.Machine

/-- The ROMs at reset are in canonical form. -/
theorem wf_reset_rom : Rom.wf Rom.reset = true := by decide

/-- At reset every entry reads as its table's constant (R32). -/
@[simp] theorem memRead_reset (sp : Space) (x : Byte) : memRead Rom.reset sp x = romConstant sp x := by
  cases sp <;> rfl

/-- No operation writes a ROM (R42): the canonical form is kept by every operation on the state. -/
theorem exec_keeps_rom {i : Instr} {s t : State} (h : exec i s = .next t) : t.rom = s.rom := by
  obtain ⟨r, hr⟩ := exec_responds i s
  cases hr.symm.trans h
  exact respond_rom s r

/-- The canonical form of the ROMs is kept by every operation. -/
theorem exec_keeps_wf {i : Instr} {s t : State} (hw : Rom.wf s.rom = true) (h : exec i s = .next t) :
    Rom.wf t.rom = true := by rw [exec_keeps_rom h, hw]

end Sys2Proof.Laws
end

