-- ==== Sys2Proof/Tests/Slice0.lean ====
section
/-! SUPPORT. The model's own tests. Expected values come from spec/95_test_vectors.md (the part is named at each test), the
request words from the packing of 30_encoding.md R60. Then, for every statement with hypotheses, a state and operands
that meet them. -/

namespace Sys2Proof.Tests

-- One theorem after another: the compile of the whole package then needs few threads.
set_option Elab.async false

open Sys2Proof.Machine Sys2Proof.Safety

/-- `I` of 95_test_vectors.md: the value whose byte k is k. -/
def vecI : Block := fips 0x000102030405060708090a0b0c0d0e0f

/-- The `b` of L2.8. -/
def vecJ : Block := fips 0x101112131415161718191a1b1c1d1e1f

/-- The §8 key. -/
def vecKey : Block := fips 0x2b7e151628aed2a6abf7158809cf4f3c

/-- What the core answers to a request it runs first after reset, through decode and one step. -/
def answerOf (i : Instr) : Option Reply :=
  match step (State.reset.withRequest (encode i)) with
  | .next t => some t.outputs
  | _ => none

/-- The state after one step. -/
def afterStep (s : State) : State :=
  match step s with
  | .next t => t
  | _ => s

/-- The ports at a rising edge. -/
def edge (rst inValid : Bool) (op : BitVec 4) (a b c : Block) : Pins := ⟨.rising, rst, inValid, op, a, b, c⟩

/-- A wrapper of LATENCY = L, no request in flight, with the drives to come. -/
def wrapped (L : Nat) (drives : List Pins) : State :=
  { State.reset with stages := List.replicate L ⟨false, ⟨false, 0⟩⟩, inbox := drives }

/-! ## Decoding: one word per operation, the packed `c = #3`, `b`, `a` of L2.8 and the op code of R61 -/

theorem test_decode_aesdm :
    decode 0x000000000000000000000000000000031F1E1D1C1B1A191817161514131211100F0E0D0C0B0A090807060504030201000 = .aesdm vecI vecJ 3 := by decide +kernel

theorem test_decode_aesdf :
    decode 0x000000000000000000000000000000031F1E1D1C1B1A191817161514131211100F0E0D0C0B0A090807060504030201001 = .aesdf vecI vecJ 3 := by decide +kernel

theorem test_decode_aesem :
    decode 0x000000000000000000000000000000031F1E1D1C1B1A191817161514131211100F0E0D0C0B0A090807060504030201002 = .aesem vecI vecJ 3 := by decide +kernel

theorem test_decode_aesef :
    decode 0x000000000000000000000000000000031F1E1D1C1B1A191817161514131211100F0E0D0C0B0A090807060504030201003 = .aesef vecI vecJ 3 := by decide +kernel

theorem test_decode_aesz :
    decode 0x000000000000000000000000000000031F1E1D1C1B1A191817161514131211100F0E0D0C0B0A090807060504030201004 = .aesz vecI vecJ 3 := by decide +kernel

theorem test_decode_gmul :
    decode 0x000000000000000000000000000000031F1E1D1C1B1A191817161514131211100F0E0D0C0B0A090807060504030201005 = .gmul vecI vecJ 3 := by decide +kernel

theorem test_decode_ghsh :
    decode 0x000000000000000000000000000000031F1E1D1C1B1A191817161514131211100F0E0D0C0B0A090807060504030201006 = .ghsh vecI vecJ 3 := by decide +kernel

theorem test_decode_aeskf1 :
    decode 0x000000000000000000000000000000031F1E1D1C1B1A191817161514131211100F0E0D0C0B0A090807060504030201007 = .aeskf1 vecI vecJ 3 := by decide +kernel

theorem test_decode_aeskf2 :
    decode 0x000000000000000000000000000000031F1E1D1C1B1A191817161514131211100F0E0D0C0B0A090807060504030201008 = .aeskf2 vecI vecJ 3 := by decide +kernel

theorem test_decode_sm4k :
    decode 0x000000000000000000000000000000031F1E1D1C1B1A191817161514131211100F0E0D0C0B0A090807060504030201009 = .sm4k vecI vecJ 3 := by decide +kernel

theorem test_decode_sm4r :
    decode 0x000000000000000000000000000000031F1E1D1C1B1A191817161514131211100F0E0D0C0B0A09080706050403020100A = .sm4r vecI vecJ 3 := by decide +kernel

theorem test_decode_sm3me :
    decode 0x000000000000000000000000000000031F1E1D1C1B1A191817161514131211100F0E0D0C0B0A09080706050403020100B = .sm3me vecI vecJ 3 := by decide +kernel

theorem test_decode_sm3c :
    decode 0x000000000000000000000000000000031F1E1D1C1B1A191817161514131211100F0E0D0C0B0A09080706050403020100C = .sm3c vecI vecJ 3 := by decide +kernel

theorem test_decode_sha2ms :
    decode 0x000000000000000000000000000000031F1E1D1C1B1A191817161514131211100F0E0D0C0B0A09080706050403020100D = .sha2ms vecI vecJ 3 := by decide +kernel

theorem test_decode_sha2ch :
    decode 0x000000000000000000000000000000031F1E1D1C1B1A191817161514131211100F0E0D0C0B0A09080706050403020100E = .sha2ch vecI vecJ 3 := by decide +kernel

theorem test_decode_sha2cl :
    decode 0x000000000000000000000000000000031F1E1D1C1B1A191817161514131211100F0E0D0C0B0A09080706050403020100F = .sha2cl vecI vecJ 3 := by decide +kernel

/-- The host's entry reads the same word, and its low 136 bits with everything above 0. -/
theorem test_decodeTableWord :
    decodeTableWord 388 0x000000000000000000000000000000031F1E1D1C1B1A191817161514131211100F0E0D0C0B0A090807060504030201006 = some (.ghsh vecI vecJ 3) ∧
    decodeTableWord 8 0xA7 = some (.aeskf1 0xA 0 0) := by decide +kernel

/-- The boundary of what is a request: 2^388 - 1 is one, 2^388 is not (log 8). -/
theorem test_decodeNumber_boundary :
    decodeNumber (2 ^ 388 - 1) = .ok (.sha2cl (BitVec.allOnes 128) (BitVec.allOnes 128) (BitVec.allOnes 128)) ∧
    decodeNumber (2 ^ 388) = .error .longerThanOneRequest := by
  refine ⟨?_, ?_⟩
  · rw [decodeNumber, if_pos (by decide +kernel)]; exact congrArg Except.ok (by decide +kernel)
  · rw [decodeNumber, if_neg (by decide +kernel)]

/-- `withFetchWord` makes the very next step run the word. -/
theorem test_withFetchWord :
    (afterStep (State.reset.withFetchWord 388 0x000000000000000000000000000000031F1E1D1C1B1A191817161514131211100F0E0D0C0B0A090807060504030201004)).outputs
      = ⟨false, 0x10101010101010101010101010101010⟩ := by decide +kernel

/-! ## Operations -/

/-- L2.8. -/
theorem test_aesdm : answerOf (.aesdm vecI vecJ 3) = some ⟨false, fips 0x09bc8e01300235770558e2a7d0ae8f40⟩ := by decide +kernel

/-- L2.8. -/
theorem test_aesdf : answerOf (.aesdf vecI vecJ 3) = some ⟨false, fips 0x42e2b12b241cc189a72f70e09d5dbbca⟩ := by decide +kernel

/-- L2.8. -/
theorem test_aesem : answerOf (.aesem vecI vecJ 3) = some ⟨false, fips 0x7a7b4e5638782546a8c0477a3b813f43⟩ := by decide +kernel

/-- L2.8. -/
theorem test_aesef : answerOf (.aesef vecI vecJ 3) = some ⟨false, fips 0x737a7565e614bd6c28ce6ddee2617134⟩ := by decide +kernel

/-- L2.8. -/
theorem test_aesz : answerOf (.aesz vecI vecJ 3) = some ⟨false, fips 0x10101010101010101010101010101010⟩ := by decide +kernel

/-- L2.8. -/
theorem test_gmul : answerOf (.gmul vecI vecJ 3) = some ⟨false, fips 0x1bc91888448608ef543b5852045c4835⟩ := by decide +kernel

/-- L2.8. -/
theorem test_ghsh : answerOf (.ghsh vecI vecJ 3) = some ⟨false, fips 0x68ad7ee42efe769b266b0e0e5e140671⟩ := by decide +kernel

/-- L2.8. -/
theorem test_aeskf1 : answerOf (.aeskf1 vecI vecJ 3) = some ⟨false, fips 0xbc63d28fa876c498b06fde83ac72c09c⟩ := by decide +kernel

/-- L2.8. -/
theorem test_aeskf2 : answerOf (.aeskf2 vecI vecJ 3) = some ⟨false, fips 0x9ca570c398a076c490a97ccf9ca472c0⟩ := by decide +kernel

/-- L2.7 row 10. -/
theorem test_aesdm_2 : answerOf (.aesdm (fips 0x6a6a5c452c6d3351b0d95d61279c215c) 0 0) = some ⟨false, fips 0xaf88138d942ec4c714cad140ddc631fc⟩ := by decide +kernel

/-- L2.7 row 13. -/
theorem test_aesdf_2 : answerOf (.aesdf (fips 0x626a6677f300aa7a31d676c4ff7d6e2a) (fips 0x01010101010101010101010101010101) 0) = some ⟨false, fips 0xaa120ebc7f5944892f53d2947c4b6303⟩ := by decide +kernel

/-- L2.7 row 4: c is ignored. -/
theorem test_aesem_2 : answerOf (.aesem (BitVec.allOnes 128) (BitVec.allOnes 128) (BitVec.allOnes 128)) = some ⟨false, 0xE9E9E9E9E9E9E9E9E9E9E9E9E9E9E9E9⟩ := by decide +kernel

/-- L2.7 row 7. -/
theorem test_aesef_2 : answerOf (.aesef (fips 0xeb40f21e592e38848ba113e71bc342d2) (fips 0xd014f9a8c9ee2589e13f0cc8b6630ca6) 0) = some ⟨false, fips 0x3925841d02dc09fbdc118597196a0b32⟩ := by decide +kernel

/-- L2.7 row 17. -/
theorem test_aesz_2 : answerOf (.aesz vecI 0 (BitVec.allOnes 128)) = some ⟨false, vecI⟩ := by decide +kernel

/-- L2.6 row 8. -/
theorem test_gmul_2 : answerOf (.gmul (BitVec.allOnes 128) (BitVec.allOnes 128) 0) = some ⟨false, 0xAAAAAAAAAAAAAAAAAAAAAAAAAAAA02F4⟩ := by decide +kernel

/-- L2.6 row 14. -/
theorem test_ghsh_2 : answerOf (.ghsh vecI 0x80 (BitVec.allOnes 128)) = some ⟨false, fips 0xfffefdfcfbfaf9f8f7f6f5f4f3f2f1f0⟩ := by decide +kernel

/-- L2.5 AESKF1 row 3. -/
theorem test_aeskf1_2 : answerOf (.aeskf1 0 vecKey 9) = some ⟨false, 0x05766C1D3939A314B12C54BF17FEFA97⟩ := by decide +kernel

/-- L2.5 AESKF2 row 6. -/
theorem test_aeskf2_2 : answerOf (.aeskf2 vecI vecJ 14) = some ⟨false, fips 0xe473c29fe076c498e87fce93e472c09c⟩ := by decide +kernel

/-- L2.8, and with every operand ~0. -/
theorem test_sm4k : answerOf (.sm4k vecI vecJ 3) = some ⟨true, 0⟩ ∧
    answerOf (.sm4k (BitVec.allOnes 128) (BitVec.allOnes 128) (BitVec.allOnes 128)) = some ⟨true, 0⟩ := by decide +kernel

/-- L2.8, and with every operand ~0. -/
theorem test_sm4r : answerOf (.sm4r vecI vecJ 3) = some ⟨true, 0⟩ ∧
    answerOf (.sm4r (BitVec.allOnes 128) (BitVec.allOnes 128) (BitVec.allOnes 128)) = some ⟨true, 0⟩ := by decide +kernel

/-- L2.8, and with every operand ~0. -/
theorem test_sm3me : answerOf (.sm3me vecI vecJ 3) = some ⟨true, 0⟩ ∧
    answerOf (.sm3me (BitVec.allOnes 128) (BitVec.allOnes 128) (BitVec.allOnes 128)) = some ⟨true, 0⟩ := by decide +kernel

/-- L2.8, and with every operand ~0. -/
theorem test_sm3c : answerOf (.sm3c vecI vecJ 3) = some ⟨true, 0⟩ ∧
    answerOf (.sm3c (BitVec.allOnes 128) (BitVec.allOnes 128) (BitVec.allOnes 128)) = some ⟨true, 0⟩ := by decide +kernel

/-- L2.8, and with every operand ~0. -/
theorem test_sha2ms : answerOf (.sha2ms vecI vecJ 3) = some ⟨true, 0⟩ ∧
    answerOf (.sha2ms (BitVec.allOnes 128) (BitVec.allOnes 128) (BitVec.allOnes 128)) = some ⟨true, 0⟩ := by decide +kernel

/-- L2.8, and with every operand ~0. -/
theorem test_sha2ch : answerOf (.sha2ch vecI vecJ 3) = some ⟨true, 0⟩ ∧
    answerOf (.sha2ch (BitVec.allOnes 128) (BitVec.allOnes 128) (BitVec.allOnes 128)) = some ⟨true, 0⟩ := by decide +kernel

/-- L2.8, and with every operand ~0. -/
theorem test_sha2cl : answerOf (.sha2cl vecI vecJ 3) = some ⟨true, 0⟩ ∧
    answerOf (.sha2cl (BitVec.allOnes 128) (BitVec.allOnes 128) (BitVec.allOnes 128)) = some ⟨true, 0⟩ := by decide +kernel
/-! ## Well-formedness: an ill-formed use for each check -/

/-- L2.1, the two refused uses; R80 has `start + width = n` well formed. -/
theorem test_fieldOk_refuses :
    fieldOk 16 12 8 = false ∧ fieldOk 16 3 0 = false ∧ fieldOk 16 15 1 = true ∧ fieldOk 16 0 16 = true := by decide

/-- R81: an output narrower than the field is refused. -/
theorem test_signedFieldOk_refuses : signedFieldOk 16 4 8 7 = false ∧ signedFieldOk 16 4 8 8 = true := by decide

/-- R67: `#16` is refused, `#n` is for `c` only, an unknown mnemonic is refused. -/
theorem test_line_refuses :
    immOk 16 = false ∧
    (Line.request "t" "AESKF1" .blank (.name "k") (.imm 16)).wellFormed = false ∧
    (Line.request "t" "AESZ" (.imm 1) .blank .blank).wellFormed = false ∧
    (Line.request "t" "AESX" .blank .blank .blank).wellFormed = false ∧
    (Line.request "t" "AESKF1" .blank (.name "k") (.imm 15)).wellFormed = true := by decide

/-! ## Units -/

/-- L2.1. -/
theorem test_extract :
    extractUnsigned 0xABCD#16 15 1 (by decide) = 1 ∧ extractSigned 0x0070#16 4 4 8 (by decide) = 0x07 ∧
    extractSigned 0x8000#16 15 1 8 (by decide) = 0xFF := by decide

/-- L2.2: both directions of an inverse pair, a product over bits 4 to 7 of y, the largest operands. -/
theorem test_gf8mul :
    gf8mul 0x53 0xCA = 1 ∧ gf8mul 0xCA 0x53 = 1 ∧ gf8mul 0x57 0x83 = 0xC1 ∧ gf8mul 0xFF 0xFF = 0x13 := by
  decide +kernel

/-- L2.3. -/
theorem test_sbox :
    sbox8 Rom.reset 0x53 = 0xED ∧ sbox8 Rom.reset 0xFF = 0x16 ∧ invsbox8 Rom.reset 0x53 = 0x50 ∧
    invsbox8 Rom.reset 0xFF = 0x7D := by decide +kernel

/-- L2.3: no two entries are equal, no fixed point and no opposite one. -/
theorem test_sbox_properties :
    (∀ x : Byte, invsbox8 Rom.reset (sbox8 Rom.reset x) = x ∧ sbox8 Rom.reset x ≠ x ∧
      sbox8 Rom.reset x ≠ x ^^^ 0xFF) := by decide +kernel

/-- L2.4. -/
theorem test_mixcolumns :
    mixcolumns vecI = fips 0x02070005060304010a0f080d0e0b0c09 ∧
    invmixcolumns vecI = fips 0x0a0f080d0e0b0c090207000506030401 := by decide +kernel

/-- L2.5. -/
theorem test_rcon : rcon (-1) = 0 ∧ rcon 8 = 0x1B ∧ rcon 9 = 0x36 ∧ rcon 10 = 0 := by decide

/-- L1.1, the known-answer vector of §8: encryption, and its decryption. -/
theorem test_known_answer :
    encrypt Rom.reset (aes128Key Rom.reset vecKey) 10 (fips 0x3243f6a8885a308d313198a2e0370734)
      = fips 0x3925841d02dc09fbdc118597196a0b32 ∧
    decrypt Rom.reset (aes128Key Rom.reset vecKey) 10 (fips 0x3925841d02dc09fbdc118597196a0b32)
      = fips 0x3243f6a8885a308d313198a2e0370734 := by decide +kernel

/-- P4: the ciphertext under a 256-bit key. -/
theorem test_aes256 :
    encrypt Rom.reset (aes256Key Rom.reset vecI vecJ) 14 (fips 0x00112233445566778899aabbccddeeff)
      = fips 0x8ea2b7ca516745bfeafc49904b496089 := by decide +kernel

/-! ## The wrapper, single steps of P6 (LATENCY = 2) -/

/-- P6 between edge 2 and edge 3: B then A in flight, C presented. -/
def p6 : State :=
  { wrapped 2 [edge false true 4 0x01010101010101010101010101010101 0x01010101010101010101010101010101 0] with
    stages := [⟨true, ⟨true, 0⟩⟩, ⟨true, ⟨false, 0x01010101010101010101010101010101⟩⟩] }

/-- P6, edge 2: A's response. -/
theorem test_p6_before : p6.response = some (.result 0x01010101010101010101010101010101) := by decide

/-- P6, edge 3: C enters, B's response is a fault. -/
theorem test_p6_edge3 :
    (afterStep p6).stages = [⟨true, ⟨false, 0⟩⟩, ⟨true, ⟨true, 0⟩⟩] ∧
    (afterStep p6).response = some (.fault .unsupportedOperation) := by decide +kernel

/-- P6, edge 6: a reset discards what was in flight. -/
theorem test_p6_reset :
    (afterStep { p6 with inbox := [edge true true 0xC 0 0 0] }).outValid = some false ∧
    (afterStep { p6 with inbox := [edge true true 0xC 0 0 0] }).stages.map (·.vld) = [false, false] := by decide

/-- R30: an edge with no request from the state before P6's edge 3; the stages shift. -/
theorem test_p6_bubble :
    (afterStep { p6 with inbox := [] }).stages.map (·.vld) = [false, true] ∧
    (afterStep { p6 with inbox := [] }).outputs = ⟨true, 0⟩ := by decide

/-- R243: at power-up an edge with a request does not count as a reset, one with rst = 1 does, and then there is no
response. -/
theorem test_before_reset :
    (afterStep { State.powerUp 2 with inbox := [edge false true 4 5 3 0] }).wasReset = false ∧
    (afterStep { State.powerUp 2 with inbox := [edge true true 4 5 3 0] }).wasReset = true ∧
    (afterStep { State.powerUp 2 with inbox := [edge true true 4 5 3 0] }).response = none := by decide

/-- R240, R26: with LATENCY = 0 `rst` and `in_valid` do not exist, and the request is answered. -/
theorem test_combinational_ignores_rst :
    (afterStep { State.reset with inbox := [edge true false 4 5 3 0] }).outputs = ⟨false, 6⟩ ∧
    (afterStep { State.reset with inbox := [edge true false 4 5 3 0] }).outValid = none := by decide +kernel

/-- A script line: `ct = AESZ pt, rk, _` records a result, an unsupported one a fault (R67, R222). -/
theorem test_script :
    (Caller.run Rom.reset ⟨[("x", 5), ("y", 3)], []⟩ (.request "z" "AESZ" (.name "x") (.name "y") .blank))
      = ⟨[("z", 6), ("x", 5), ("y", 3)], [.result 6]⟩ ∧
    (Caller.run Rom.reset ⟨[("x", 5)], []⟩ (.request "t" "SM3C" (.name "x") .blank .blank))
      = ⟨[("t", 0), ("x", 5)], [.fault .unsupportedOperation]⟩ := by decide +kernel

/-- R245 with L = 2: C of P6 may issue at edge 3, not at edge 2. -/
theorem test_mayIssue : mayIssue 2 1 3 = true ∧ mayIssue 2 1 2 = false := by decide

/-- D17: the ends of the documented domains, and c above bit 3. -/
theorem test_inDomain :
    inDomain (.aeskf1 0 0 9) = true ∧ inDomain (.aeskf1 0 0 10) = false ∧ inDomain (.aeskf1 0 0 0x10) = false ∧
    inDomain (.aeskf2 0 0 2) = true ∧ inDomain (.aeskf2 0 0 14) = true ∧ inDomain (.aeskf2 0 0 1) = false ∧
    inDomain (.aeskf2 0 0 15) = false := by decide

/-! ## Witnesses: for each statement with hypotheses, states and operands that meet them -/

/-- A wrapper of LATENCY = 1 with a request presented. -/
def one : State := wrapped 1 [edge false true 5 1 2 3]

theorem witness_OverlongNumberRefused :
    2 ^ 388 ≤ 2 ^ 388 ∧ ¬ 2 ^ 388 ≤ 2 ^ 388 - 1 ∧ (BitVec.allOnes 388).toNat = 2 ^ 388 - 1 := by decide +kernel

theorem witness_RoundIndexIsLowNibbleOfC :
    (0x12#128).toNat % 16 = (0xFFF2#128).toNat % 16 ∧ (0x0F#128).toNat % 16 = (0x1F#128).toNat % 16 := by decide

/-- Every operand form, `#15` and the first and last mnemonic among them. -/
theorem witness_ScriptLineEncoding :
    codeOfMnemonic "AESDM" = some 0 ∧ codeOfMnemonic "SHA2CL" = some 15 ∧ [("k", (7 : Block))].lookup "k" = some 7 ∧
    (∀ n, Operand.name "k" ≠ .imm n) ∧ (∀ n, Operand.blank ≠ .imm n) ∧ (∀ n, Operand.imm 15 = .imm n → n ≤ 15) ∧
    (∀ n, Operand.blank = .imm n → n ≤ 15) ∧ (15#128).toNat = 15 ∧ (0 : Block) = 0 := by
  refine ⟨by decide, by decide, by decide, nofun, nofun, fun n h => ?_, nofun, by decide, rfl⟩
  injection h with h; omega

theorem witness_StepRunsDecodedRequest_combinational :
    ({ State.reset with inbox := [edge true false 5 1 2 3] } : State).inbox = edge true false 5 1 2 3 :: [] ∧
    ({ State.reset with inbox := [edge true false 5 1 2 3] } : State).stages = [] := by decide

theorem witness_StepRunsDecodedRequest_wrapped :
    one.inbox = edge false true 5 1 2 3 :: [] ∧ presentsRequest (edge false true 5 1 2 3) := by
  exact ⟨rfl, rfl, rfl, rfl⟩

theorem witness_UnsupIsAFunctionOfOp :
    9 ≤ (9#4).toNat ∧ (15#4).toNat ≤ 15 ∧ ¬ 9 ≤ (8#4).toNat ∧ supported 8 = true ∧ supported 9 = false := by decide

theorem witness_CombinationalOutputs :
    ({ State.reset with inbox := [edge false true 9 1 2 3] } : State).latency = 0 ∧
    ({ State.reset with inbox := [edge false true 9 1 2 3] } : State).inbox = edge false true 9 1 2 3 :: [] := by decide

theorem witness_WrapperEdge_reset :
    1 ≤ p6.latency ∧ (edge true true 5 1 2 3).clk = .rising ∧ (edge true true 5 1 2 3).rst = true ∧
    ({ p6 with inbox := [edge true true 5 1 2 3] } : State).inbox = edge true true 5 1 2 3 :: [] := by decide

theorem witness_WrapperEdge_request :
    1 ≤ p6.latency ∧ p6.wasReset = true ∧ 0 + 1 < p6.latency ∧ (edge false true 5 1 2 3).clk = .rising ∧
    (edge false true 5 1 2 3).rst = false ∧ (edge false true 5 1 2 3).inValid = true ∧
    ({ p6 with inbox := [edge false true 5 1 2 3] } : State).inbox = edge false true 5 1 2 3 :: [] := by decide

theorem witness_WrapperEdge_ignored :
    let p := edge false false 5 1 2 3; let q := edge false false 12 7 8 9
    let p' := edge true true 5 1 2 3; let q' := edge true false 12 7 8 9
    1 ≤ p6.latency ∧ p6.wasReset = true ∧ p.clk = .rising ∧ q.clk = .rising ∧ p.rst = false ∧ q.rst = false ∧ p.inValid = false ∧
    q.inValid = false ∧ p'.clk = .rising ∧ q'.clk = .rising ∧ p'.rst = true ∧ q'.rst = true := by decide

theorem witness_WrapperOutputs :
    1 ≤ p6.latency ∧ p6.stages[p6.latency - 1]? = some ⟨true, ⟨false, 0x01010101010101010101010101010101⟩⟩ := by decide

theorem witness_WrapperOutputs_discarded :
    let ps := [edge true false 0 0 0 0]
    let s := wrapped 2 (edge false true 5 1 2 3 :: ps)
    ps.length + 1 = s.latency ∧ s.inbox = edge false true 5 1 2 3 :: (ps ++ []) ∧
    presentsRequest (edge false true 5 1 2 3) ∧ (∀ q ∈ ps, q.clk = .rising) ∧ ∃ q ∈ ps, q.rst = true :=
  ⟨rfl, rfl, ⟨rfl, rfl, rfl⟩, by decide, by decide⟩

theorem witness_WrapperDelivers_LATENCY_one :
    ([] : List Pins).length + 1 = one.latency ∧ one.wasReset = true ∧ one.inbox = edge false true 5 1 2 3 :: ([] ++ []) ∧
    presentsRequest (edge false true 5 1 2 3) ∧ ∀ q ∈ ([] : List Pins), q.clk = .rising ∧ q.rst = false :=
  ⟨rfl, rfl, rfl, ⟨rfl, rfl, rfl⟩, by decide⟩

theorem witness_WrapperDelivers_LATENCY_two :
    let ps := [edge false false 0 0 0 0]
    let s := wrapped 2 (edge false true 5 1 2 3 :: ps)
    ps.length + 1 = s.latency ∧ s.wasReset = true ∧ s.inbox = edge false true 5 1 2 3 :: (ps ++ []) ∧
    presentsRequest (edge false true 5 1 2 3) ∧ ∀ q ∈ ps, q.clk = .rising ∧ q.rst = false :=
  ⟨rfl, rfl, rfl, ⟨rfl, rfl, rfl⟩, by decide⟩

theorem witness_EqualRequestsEqualReplies :
    State.reset.latency = 0 ∧ 1 ≤ one.latency ∧ one.wasReset = true ∧
    (∃ t, Host.Core.run Sys2Proof.core 1 State.reset = .next t) ∧ ∃ t, Host.Core.run Sys2Proof.core 1 one = .next t :=
  ⟨rfl, by decide, rfl, ⟨_, rfl⟩, ⟨_, rfl⟩⟩

theorem witness_ReplyPlacedAndRead :
    State.reset.latency = 0 ∧ 1 ≤ one.latency ∧ one.wasReset = true ∧ (⟨true, 0⟩ : Reply).unsup = true ∧
    (⟨false, 7⟩ : Reply).unsup = false := by
  decide

theorem witness_ExecFrame :
    (∃ t, exec (.ghsh 1 2 3) State.reset = .next t) ∧ (∃ t, exec (.sm4k 1 2 3) p6 = .next t) ∧ 1 ≤ p6.latency ∧
    p6.wasReset = true ∧ 0 + 1 < p6.latency := ⟨⟨_, rfl⟩, ⟨_, rfl⟩, by decide, rfl, by decide⟩

theorem witness_StepFrame :
    (∃ t, step p6 = .next t) ∧ (∃ t, step State.reset = .next t) ∧ p6.wasReset = true ∧
    p6.inbox = edge false true 4 0x01010101010101010101010101010101 0x01010101010101010101010101010101 0 :: [] :=
  ⟨⟨_, rfl⟩, ⟨_, rfl⟩, rfl, rfl⟩

theorem witness_NoStepWritesMemory : ∃ t, step p6 = .next t := ⟨_, rfl⟩

/-- A wrapper that was reset, with requests in flight, a fault among them, meets the invariant. -/
theorem witness_StepKeepsInvariant : inv p6 ∧ ∃ t, step p6 = .next t := by
  refine ⟨⟨by decide +kernel, fun h => ?_, fun _ => ?_, ?_⟩, ⟨_, rfl⟩⟩
  · exact absurd h (by decide)
  · decide
  · decide

theorem witness_ResetValues : 1 ≤ 1 ∧ 0 = 0 := by decide

theorem witness_OneResetEdgeIsEnough :
    1 ≤ p6.latency ∧ (edge true false 0 0 0 0).clk = .rising ∧ (edge true false 0 0 0 0).rst = true ∧
    ({ p6 with inbox := [edge true false 0 0 0 0] } : State).inbox = edge true false 0 0 0 0 :: [] := by decide

/-- At power-up: an edge with a request, and a stopped clock. -/
theorem witness_OneResetEdgeIsEnough_before :
    let p := edge false true 5 1 2 3
    let q := { p with clk := .stopped }
    1 ≤ (State.powerUp 1).latency ∧ ({ State.powerUp 1 with inbox := [p] } : State).wasReset = false ∧
    ({ State.powerUp 1 with inbox := [p] } : State).inbox = p :: [] ∧ p.rst = false ∧ q.clk = .stopped := by
  exact ⟨by decide, rfl, rfl, rfl, rfl⟩

theorem witness_BitFieldExtractor :
    fieldOk 16 15 1 = true ∧ signedFieldOk 16 12 4 8 = true ∧ fieldOk 16 0 16 = true ∧ signedFieldOk 16 15 1 8 = true ∧
    fieldOk 16 4 8 = true ∧ signedFieldOk 16 4 4 8 = true := by decide

theorem witness_XtimeAndTriple : 128 ≤ (0x80#8).toNat ∧ (0x7F#8).toNat < 128 := by decide

theorem witness_SboxIsAffineOfInverse : (0x01#8 ≠ 0 ∧ gf8mul 0x01 0x01 = 1) ∧ gf8mul 0x53 0xCA = 1 := by decide +kernel

theorem witness_TablesAreInverse : sbox8 Rom.reset 0x00 = 0x63 ∧ sbox8 Rom.reset 0xFF = 0x16 := by decide +kernel

/-- The columns of the two columnwise statements (L2.4). -/
theorem witness_MixColumnsPerColumn :
    col 0x455313DB 0 = 0x455313DB ∧ col (0x455313DB#128 <<< 96) 3 = 0x455313DB ∧ col vecI 0 = col (vecI ^^^ 1#128 <<< 127) 0 ∧
    ∀ r : Fin 4, byte (col 0xC6C6C6C6 0) r = 0xC6 := by decide

theorem witness_InvMixColumnsPerColumn :
    col 0xBCA14D8E 0 = 0xBCA14D8E ∧ col (0xBCA14D8E#128 <<< 96) 3 = 0xBCA14D8E ∧
    ∀ r : Fin 4, byte (col 0xC6C6C6C6 0) r = 0xC6 := by decide

theorem witness_RoundConstants : (-1 : Int) < 0 ∧ (9 : Int) < 10 := by decide

theorem witness_KeyScheduleUnitLaws : ((0 : Int) ≤ 0 ∧ (0 : Int) ≤ 8) ∧ (0 : Int) ≤ 8 ∧ (8 : Int) ≤ 8 := by decide

theorem witness_InverseMatrixIsTheOnlyOne :
    [(14 : Byte), 11, 13, 9].Perm [9, 11, 13, 14] ∧ [(9 : Byte), 11, 13, 14].Perm [9, 11, 13, 14] := by decide

theorem witness_results_rom : State.reset.rom = Rom.reset ∧ p6.rom = Rom.reset := by decide

theorem witness_AeszResult : vecI = vecI ∧ (0 : Block) = 0 := ⟨rfl, rfl⟩

theorem witness_GmulResult :
    (0 : Block) = 0 ∨ vecI = 0 := .inl rfl

theorem witness_GhshResult : (vecJ = vecJ) ∧ (0x80 : Block) = 0x80 := ⟨rfl, rfl⟩

theorem witness_Aeskf1Result : 10 ≤ (10#128).toNat % 16 ∧ 10 ≤ (0x1F#128).toNat % 16 := by decide

theorem witness_Aeskf2Result :
    (15#128).toNat % 2 = 1 ∧ (1#128).toNat % 2 = 1 ∧ (14#128).toNat % 2 = 0 ∧ (0#128).toNat % 16 = 0 ∧
    (14#128).toNat % 16 = 14 := by decide

theorem witness_UnsupportedOperations :
    Instr.sm4k 1 2 3 ∈ [Instr.sm4k 1 2 3, .sm4r 1 2 3, .sm3me 1 2 3, .sm3c 1 2 3, .sha2ms 1 2 3, .sha2ch 1 2 3,
      .sha2cl 1 2 3] ∧ State.reset.latency = 0 ∧ 1 ≤ p6.latency ∧ p6.wasReset = true := by decide

theorem witness_WholeCipherRoundTrip : 1 ≤ 1 ∧ 1 ≤ 10 ∧ 1 ≤ 14 := by decide

end Sys2Proof.Tests
end

section
/-! The core's answer to a request, a step of the registered wrapper, and the outputs (10_state.md R26, R30, R31). -/

namespace Sys2Proof.Proofs

open Sys2Proof.Machine Sys2Proof.Safety Sys2Proof.Laws

/-! ## One step, by what its drive asks for -/

/-- The dispatch of a decoded operation agrees with `Execute`, code by code (R200). -/
theorem exec_decodeOp (op : BitVec 4) (a b c : Block) (s : State) :
    exec (decodeOp op a b c) s = .next (s.respond (execute s.rom op a b c)) := by
  obtain ⟨n, hn⟩ := op
  interval_cases n <;> rfl

theorem present_pins {s : State} {p : Pins} {ps : List Pins} (hi : s.inbox = p :: ps) : s.present.pins = p := by
  rw [present_cons hi]

/-- A step whose drive is computed answers it with `Execute` of the ports. -/
theorem step_of_event_request {s : State} {p : Pins} {ps : List Pins} (hi : s.inbox = p :: ps)
    (he : s.present.event = .request) :
    step s = .next (s.present.respond (execute s.rom p.op p.a p.b p.c)) := by
  simp [step, he, State.fetched, present_pins hi, exec_decodeOp]

@[simp] theorem latency_present (s : State) : s.present.latency = s.latency :=
  congrArg List.length (present_stages s)

@[simp] theorem latency_shiftIn (s : State) (new : Stage) : (s.shiftIn new).latency = s.latency :=
  length_shiftIn new s

@[simp] theorem latency_resetEdge (s : State) : s.resetEdge.latency = s.latency := length_resetEdge s

@[simp] theorem shiftIn_inbox (s : State) (new : Stage) : (s.shiftIn new).inbox = s.inbox := rfl

@[simp] theorem shiftIn_wasReset (s : State) (new : Stage) : (s.shiftIn new).wasReset = s.wasReset := rfl

theorem stages_eq_nil_iff {s : State} : s.stages = [] ↔ s.latency = 0 := List.length_eq_zero_iff.symm

theorem present_stages_ne_nil {s : State} (hL : 1 ≤ s.latency) : s.present.stages ≠ [] := by
  rw [present_stages, Ne, stages_eq_nil_iff]
  omega

/-- Stage 0 after an edge with rst = 0 of a wrapper that was reset. -/
theorem shiftIn_stages_zero {s : State} (hw : s.wasReset = true) (hL : 1 ≤ s.latency) (new : Stage) :
    (s.shiftIn new).stages[0]? = some new := by
  rw [shiftIn_of_wasReset hw]
  exact shiftStages_zero new (List.length_pos_iff.mp hL)

/-- Stage i+1 after an edge with rst = 0 of a wrapper that was reset. -/
theorem shiftIn_stages_succ {s : State} (hw : s.wasReset = true) (new : Stage) {i : Nat} (h : i + 1 < s.latency) :
    (s.shiftIn new).stages[i + 1]? = s.stages[i]? := by
  rw [shiftIn_of_wasReset hw]
  exact shiftStages_succ new s.stages i h

section RisingEdge

variable {s : State} {p : Pins} {ps : List Pins}

/-- At a rising edge `rst` comes before `in_valid` (R30, R240). -/
theorem event_of_rising (hL : 1 ≤ s.latency) (hi : s.inbox = p :: ps) (hc : p.clk = .rising) :
    s.present.event = if p.rst then .reset else if p.inValid then .request else .bubble := by
  rw [event_of_stages (present_stages_ne_nil hL), present_pins hi, hc]

theorem step_of_rst (hL : 1 ≤ s.latency) (hi : s.inbox = p :: ps) (hc : p.clk = .rising) (hr : p.rst = true) :
    step s = .next s.present.resetEdge := by
  simp [step, event_of_rising hL hi hc, hr]

theorem step_of_no_request (hL : 1 ≤ s.latency) (hi : s.inbox = p :: ps) (hc : p.clk = .rising) (hr : p.rst = false)
    (hv : p.inValid = false) : step s = .next s.present.bubbleEdge := by
  simp [step, event_of_rising hL hi hc, hr, hv]

theorem step_of_presentsRequest (hL : 1 ≤ s.latency) (hi : s.inbox = p :: ps) (hp : presentsRequest p) :
    step s = .next (s.present.shiftIn ⟨true, execute s.rom p.op p.a p.b p.c⟩) := by
  obtain ⟨hc, hr, hv⟩ := hp
  rw [step_of_event_request hi (by simp [event_of_rising hL hi hc, hr, hv]),
    respond_of_stages (present_stages_ne_nil hL)]

/-- Whether a request is presented or not, an edge with rst = 0 shifts a new stage in. -/
theorem step_of_not_rst (hL : 1 ≤ s.latency) (hi : s.inbox = p :: ps) (hc : p.clk = .rising) (hr : p.rst = false) :
    ∃ new : Stage, step s = .next (s.present.shiftIn new) ∧ new.vld = p.inValid ∧
      (p.inValid = true → new.dat = execute s.rom p.op p.a p.b p.c) := by
  cases hv : p.inValid with
  | true => exact ⟨_, step_of_presentsRequest hL hi ⟨hc, hr, hv⟩, rfl, fun _ => rfl⟩
  | false => exact ⟨_, step_of_no_request hL hi hc hr hv, rfl, nofun⟩

end RisingEdge

/-! ## LATENCY = 0 -/

/-- Settles O13: with no stages every drive is computed, and its reply goes onto the outputs at once. -/
theorem combinationalOutputs : Obligations.CombinationalOutputs := by
  intro s p ps hL hi
  have hs : s.present.stages = [] := by rw [present_stages, stages_eq_nil_iff.mpr hL]
  refine ⟨_, step_of_event_request hi (event_of_no_stages hs), ?_⟩
  simp [respond_of_no_stages hs, State.outputs, stages_eq_nil_iff.mpr hL]

/-! ## One edge of the wrapper -/

/-- A reset edge sees nothing of the ports. -/
theorem resetEdge_stages_present {s : State} {p q : Pins} {ps : List Pins} (hi : s.inbox = p :: ps) :
    s.present.resetEdge.stages = ({ s with inbox := q :: ps } : State).present.resetEdge.stages := by
  rw [present_cons hi]
  rfl

/-- An edge without a request sees nothing of the ports. -/
theorem bubbleEdge_stages_present {s : State} {p q : Pins} {ps : List Pins} (hi : s.inbox = p :: ps) :
    s.present.bubbleEdge.stages = ({ s with inbox := q :: ps } : State).present.bubbleEdge.stages := by
  rw [present_cons hi]
  rfl

/-- Settles O14, clause by clause: a reset edge, an edge with rst = 0, and two drives that differ in inputs that are not
sampled, after which even all the stages agree. -/
theorem wrapperEdge : Obligations.WrapperEdge := by
  intro s p q ps hL hi hc
  refine ⟨fun hr => ?_, fun hw hr => ?_, fun hcq hpq => ?_⟩
  · exact ⟨_, step_of_rst hL hi hc hr, by simp, fun st => vld_of_mem_resetEdge⟩
  · obtain ⟨new, hstep, hvld, hdat⟩ := step_of_not_rst hL hi hc hr
    have hw' : s.present.wasReset = true := by simpa using hw
    refine ⟨_, hstep, by simp, fun i h => ?_, new, ?_, hvld, hdat⟩
    · rw [shiftIn_stages_succ hw' new (by simpa using h), present_stages]
    · exact shiftIn_stages_zero hw' (by simpa using hL) new
  · intro seen
    obtain ⟨hp, hq⟩ | ⟨-, hp, hq, hvp, hvq⟩ := hpq
    · exact ⟨_, _, step_of_rst hL hi hc hp, step_of_rst hL rfl hcq hq,
        congrArg (List.map seen) (resetEdge_stages_present hi)⟩
    · exact ⟨_, _, step_of_no_request hL hi hc hp hvp, step_of_no_request hL rfl hcq hq hvq,
        congrArg (List.map seen) (bubbleEdge_stages_present hi)⟩

/-! ## A reset in flight -/

/-- No stage from stage k on holds a response. -/
def ClearFrom (k : Nat) (s : State) : Prop := ∀ i st, k ≤ i → s.stages[i]? = some st → st.vld = false

theorem ClearFrom.mono {k m : Nat} {s : State} (h : ClearFrom k s) (hkm : k ≤ m) : ClearFrom m s :=
  fun i st hi => h i st (hkm.trans hi)

theorem clearFrom_resetEdge (k : Nat) (s : State) : ClearFrom k s.resetEdge :=
  fun _ _ _ hst => vld_of_mem_resetEdge (List.mem_of_getElem? hst)

/-- What is shifted in is at stage 0, so the clear stages begin one stage further on. -/
theorem ClearFrom.shiftIn {k : Nat} {s : State} (h : ClearFrom k s) (hw : s.wasReset = true) (new : Stage) :
    ClearFrom (k + 1) (s.shiftIn new) := by
  intro i st hi hst
  obtain ⟨j, rfl⟩ : ∃ j, i = j + 1 := ⟨i - 1, by omega⟩
  have hj : j + 1 < s.latency := latency_shiftIn s new ▸ (List.getElem?_eq_some_iff.mp hst).1
  rw [shiftIn_stages_succ hw new hj] at hst
  exact h j st (by omega) hst

theorem ClearFrom.present {k : Nat} {s : State} (h : ClearFrom k s) : ClearFrom k s.present := by
  simpa [ClearFrom] using h

/-- What every rising edge does: LATENCY stays, the drive is used up, `wasReset` is never taken back, and a wrapper that
was reset and is clear from stage k on is clear from stage k+1 on. -/
theorem step_of_rising {s : State} {p : Pins} {ps : List Pins} (hL : 1 ≤ s.latency) (hi : s.inbox = p :: ps)
    (hc : p.clk = .rising) :
    ∃ t, step s = .next t ∧ t.latency = s.latency ∧ t.inbox = ps ∧ (s.wasReset = true → t.wasReset = true) ∧
      (p.rst = true → t.wasReset = true ∧ ClearFrom 0 t) ∧
      ∀ k, s.wasReset = true → ClearFrom k s → ClearFrom (k + 1) t := by
  cases hr : p.rst with
  | true =>
    exact ⟨_, step_of_rst hL hi hc hr, by simp, by simp [present_inbox, hi], fun _ => rfl,
      fun _ => ⟨rfl, clearFrom_resetEdge 0 _⟩, fun k _ _ => clearFrom_resetEdge (k + 1) _⟩
  | false =>
    obtain ⟨new, hstep, -, -⟩ := step_of_not_rst hL hi hc hr
    exact ⟨_, hstep, by simp, by simp [present_inbox, hi], by simp, nofun,
      fun k hw h => h.present.shiftIn (by simpa using hw) new⟩

theorem run_succ_of_step {s t : State} (h : step s = .next t) (k : Nat) :
    Host.Core.run Sys2Proof.core (k + 1) s = Host.Core.run Sys2Proof.core k t := by
  have h' : Sys2Proof.core.step s = .next t := h
  simp only [Host.Core.run, h']

/-- After n edges at most the first n stages are filled again. -/
theorem run_keeps_clear (ds rest : List Pins) (k : Nat) (s : State) (hL : 1 ≤ s.latency) (hi : s.inbox = ds ++ rest)
    (hc : ∀ d ∈ ds, d.clk = .rising) (hw : s.wasReset = true) (hk : ClearFrom k s) :
    ∃ t : State, Host.Core.run Sys2Proof.core ds.length s = .next t ∧ t.latency = s.latency ∧
      ClearFrom (k + ds.length) t := by
  induction ds generalizing k s with
  | nil => exact ⟨s, rfl, rfl, hk⟩
  | cons d ds ih =>
    rw [List.forall_mem_cons] at hc
    obtain ⟨s', hstep, hlat, hinb, hwas, -, hclear⟩ := step_of_rising hL hi hc.1
    obtain ⟨t, hrun, hlat', ht⟩ := ih (k + 1) s' (hlat ▸ hL) hinb hc.2 (hwas hw) (hclear k hw hk)
    refine ⟨t, (run_succ_of_step hstep _).trans hrun, hlat'.trans hlat, ht.mono ?_⟩
    simp only [List.length_cons]
    omega

/-- After n edges with a reset among them at most the first n-1 stages hold a response, whatever the state was before. -/
theorem run_clear_of_rst (ds rest : List Pins) (s : State) (hL : 1 ≤ s.latency) (hi : s.inbox = ds ++ rest)
    (hc : ∀ d ∈ ds, d.clk = .rising) (hr : ∃ d ∈ ds, d.rst = true) :
    ∃ t : State, Host.Core.run Sys2Proof.core ds.length s = .next t ∧ t.latency = s.latency ∧
      ClearFrom (ds.length - 1) t := by
  induction ds generalizing s with
  | nil => simp at hr
  | cons d ds ih =>
    rw [List.forall_mem_cons] at hc
    rw [List.exists_mem_cons_iff] at hr
    obtain ⟨s', hstep, hlat, hinb, -, hrst, -⟩ := step_of_rising hL hi hc.1
    have hL' : 1 ≤ s'.latency := hlat ▸ hL
    have hrun := run_succ_of_step hstep ds.length
    obtain hd | hds := hr
    · obtain ⟨hw, hk⟩ := hrst hd
      obtain ⟨t, ht, hlat', hclear⟩ := run_keeps_clear ds rest 0 s' hL' hinb hc.2 hw hk
      exact ⟨t, hrun.trans ht, hlat'.trans hlat, hclear.mono (by simp)⟩
    · obtain ⟨t, ht, hlat', hclear⟩ := ih s' hL' hinb hc.2 hds
      exact ⟨t, hrun.trans ht, hlat'.trans hlat, hclear.mono (by simp)⟩

/-! ## The outputs of the wrapper -/

/-- The last stage, by its index. -/
theorem exists_last_stage {s : State} (hL : 1 ≤ s.latency) :
    ∃ st, s.stages[s.latency - 1]? = some st ∧ s.stages.getLast? = some st := by
  have hlt : s.latency - 1 < s.stages.length := by
    unfold State.latency at hL ⊢
    omega
  have hst : s.stages[s.latency - 1]? = some s.stages[s.latency - 1] := List.getElem?_eq_getElem hlt
  exact ⟨_, hst, List.getLast?_eq_getElem?.trans hst⟩

theorem outValid_of_getLast? {s : State} {st : Stage} (h : s.stages.getLast? = some st) :
    s.outValid = some st.vld := by
  simp [State.outValid, h]

theorem outputs_of_getLast? {s : State} {st : Stage} (h : s.stages.getLast? = some st) (hv : st.vld = true) :
    s.outputs = st.dat := by
  simp [State.outputs, h, hv]

/-- Settles O15: the outputs are read off the last stage; and of the L edges, the accepting one first, a reset among the
later ones leaves stage L-1 clear. -/
theorem wrapperOutputs : Obligations.WrapperOutputs := by
  refine ⟨fun s hL => ?_, fun s p ps rest hlen hi hp hc hr => ?_⟩
  · obtain ⟨st, hst, hlast⟩ := exists_last_stage hL
    have hvalid := outValid_of_getLast? hlast
    refine ⟨st, hst, hvalid, fun hv => ⟨outputs_of_getLast? hlast hv, ?_⟩⟩
    simp [State.response, hvalid, hv, outputs_of_getLast? hlast hv]
  · have hL : 1 ≤ s.latency := by omega
    obtain ⟨q, hq, hrst⟩ := hr
    obtain ⟨t, hrun, hlat, hclear⟩ := run_clear_of_rst (p :: ps) rest s hL hi (List.forall_mem_cons.mpr ⟨hp.1, hc⟩)
      ⟨q, List.mem_cons_of_mem p hq, hrst⟩
    obtain ⟨st, hst, hlast⟩ := exists_last_stage (hlat ▸ hL)
    have hvld : st.vld = false := hclear (t.latency - 1) st (by simp only [List.length_cons]; omega) hst
    have hvalid : t.outValid = some false := by rw [outValid_of_getLast? hlast, hvld]
    exact ⟨t, hlen ▸ hrun, hvalid, by simp [State.response, hvalid]⟩

end Sys2Proof.Proofs
end

section
/-! No step writes a memory (20_memory.md R42). -/

namespace Sys2Proof.Proofs

open Sys2Proof.Machine Sys2Proof.Laws

/-- Whatever the drive asks for, the ROMs are the old ones: an operation writes no ROM, and the three edges without an
operation touch the stages only. -/
theorem step_keeps_rom {s t : State} (h : step s = .next t) : t.rom = s.rom := by
  rw [← present_rom s]
  obtain ⟨-, hstep⟩ | ⟨-, hstep⟩ | ⟨-, hstep⟩ | ⟨-, hstep⟩ := step_cases s
  · exact exec_keeps_rom (hstep.symm.trans h)
  · cases hstep.symm.trans h
    exact resetEdge_rom s.present
  · cases hstep.symm.trans h
    exact bubbleEdge_rom s.present
  · cases hstep.symm.trans h
    exact clockStopped_rom s.present

/-- Settles O21: a read depends on the ROMs alone, and every step keeps them. -/
theorem noStepWritesMemory : Obligations.NoStepWritesMemory := by
  intro s t h sp x
  rw [step_keeps_rom h]

end Sys2Proof.Proofs
end

section
/-! The round index of the key-schedule operations (30_encoding.md R64). -/

namespace Sys2Proof.Proofs

open Sys2Proof.Machine

/-- The round index is c[3:0] as an unsigned number (R64). -/
theorem toNat_rnd (c : Block) : (rnd c).toNat = c.toNat % 16 := by
  simp [rnd, extractUnsigned]

/-- The round index reads bits 3:0 of c and no other. -/
theorem rnd_eq_of_mod_eq {c c' : Block} (h : c.toNat % 16 = c'.toNat % 16) : rnd c = rnd c' :=
  BitVec.eq_of_toNat_eq (by rw [toNat_rnd, toNat_rnd, h])

theorem exec_aeskf1 (a b c : Block) (s : State) :
    exec (.aeskf1 a b c) s = .next (s.answer (kf1 s.rom b (rnd c))) := rfl

theorem exec_aeskf2 (a b c : Block) (s : State) :
    exec (.aeskf2 a b c) s = .next (s.answer (kf2 s.rom a b (rnd c))) := rfl

/-- Settles O7: both operations use c through its round index alone, and that is c mod 16. -/
theorem roundIndexIsLowNibbleOfC : Obligations.RoundIndexIsLowNibbleOfC := by
  refine ⟨toNat_rnd, fun a b c c' s h => ?_⟩
  have hrnd : rnd c = rnd c' := rnd_eq_of_mod_eq h
  constructor
  · rw [exec_aeskf1, exec_aeskf1, hrnd]
  · rw [exec_aeskf2, exec_aeskf2, hrnd]

end Sys2Proof.Proofs
end

section
/-! GF(2^8) arithmetic (40_bitfield_gf8.md R83 to R87). Doubling and the product are linear, so two linear functions
agree on every byte once they agree on 1 and both commute with doubling (`gf8_induction`); the field laws follow. -/

namespace Sys2Proof.Proofs

open Sys2Proof.Machine

/-! ## Doubling -/

theorem xtime_of_bit7 {x : Byte} (h : x.getLsbD 7 = true) : xtime x = x <<< 1 ^^^ 0x1B#8 := if_pos h

theorem xtime_of_not_bit7 {x : Byte} (h : x.getLsbD 7 = false) : xtime x = x <<< 1 := by
  simp only [xtime, h, Bool.false_eq_true, if_false]

theorem byte_bit7_eq_decide (x : Byte) : x.getLsbD 7 = decide (128 ≤ x.toNat) :=
  x.msb_eq_getLsbD_last.symm.trans x.msb_eq_decide

theorem toNat_shiftLeft_one (x : Byte) : (x <<< 1).toNat = 2 * x.toNat % 256 := by
  rw [BitVec.toNat_shiftLeft, Nat.shiftLeft_eq, Nat.mul_comm, pow_one]

theorem toNat_xtime_of_le {x : Byte} (h : 128 ≤ x.toNat) : (xtime x).toNat = (2 * x.toNat % 256) ^^^ 0x1B := by
  rw [xtime_of_bit7 ((byte_bit7_eq_decide x).trans (decide_eq_true h)), BitVec.toNat_xor, toNat_shiftLeft_one]
  rfl

theorem toNat_xtime_of_lt {x : Byte} (h : x.toNat < 128) : (xtime x).toNat = 2 * x.toNat := by
  rw [xtime_of_not_bit7 ((byte_bit7_eq_decide x).trans (decide_eq_false (Nat.not_le.mpr h))), toNat_shiftLeft_one]
  omega

/-- Settles O28: doubling by whether bit 7 was set; the fixed values are evaluated. -/
theorem xtimeAndTriple : Obligations.XtimeAndTriple := by
  refine ⟨fun x => ⟨toNat_xtime_of_le, toNat_xtime_of_lt, rfl⟩, ?_⟩
  decide

theorem xtime_zero : xtime 0 = 0 := by decide

/-- Doubling is linear: where both bits 7 are set the two reductions cancel. -/
theorem xtime_xor (x y : Byte) : xtime (x ^^^ y) = xtime x ^^^ xtime y := by
  have hbit : (x ^^^ y).getLsbD 7 = (x.getLsbD 7 ^^ y.getLsbD 7) := BitVec.getLsbD_xor
  have hshift : (x ^^^ y) <<< 1 = x <<< 1 ^^^ y <<< 1 := BitVec.shiftLeft_xor_distrib x y 1
  cases hx : x.getLsbD 7 <;> cases hy : y.getLsbD 7 <;> rw [hx, hy] at hbit
  · rw [xtime_of_not_bit7 hbit, xtime_of_not_bit7 hx, xtime_of_not_bit7 hy, hshift]
  · rw [xtime_of_bit7 hbit, xtime_of_not_bit7 hx, xtime_of_bit7 hy, hshift, BitVec.xor_assoc]
  · rw [xtime_of_bit7 hbit, xtime_of_bit7 hx, xtime_of_not_bit7 hy, hshift]
    ac_rfl
  · rw [xtime_of_not_bit7 hbit, xtime_of_bit7 hx, xtime_of_bit7 hy, hshift]
    calc x <<< 1 ^^^ y <<< 1 = x <<< 1 ^^^ y <<< 1 ^^^ (0x1B#8 ^^^ 0x1B#8) := by rw [BitVec.xor_self, BitVec.xor_zero]
      _ = x <<< 1 ^^^ 0x1B#8 ^^^ (y <<< 1 ^^^ 0x1B#8) := by ac_rfl

/-! ## The product by 1, and induction over the field -/

theorem gf8Power_one {i : Nat} (hi : i < 8) : gf8Power 1 i = BitVec.twoPow 8 i := by
  interval_cases i <;> rfl

theorem getLsbD_gf8Acc_succ (x y : Byte) (i j : Nat) : (gf8Acc x y (i + 1)).getLsbD j =
    ((gf8Acc x y i).getLsbD j ^^ (y.getLsbD i && (gf8Power x i).getLsbD j)) := by
  rw [gf8Acc]
  split
  next hy => rw [BitVec.getLsbD_xor, hy, Bool.true_and]
  next hy => rw [Bool.eq_false_of_not_eq_true hy, Bool.false_and, Bool.xor_false]

/-- The accumulator of the product by 1 holds the bits of y that were looked at. -/
theorem getLsbD_gf8Acc_one (y : Byte) {i : Nat} (hi : i ≤ 8) (j : Nat) :
    (gf8Acc 1 y i).getLsbD j = (decide (j < i) && y.getLsbD j) := by
  induction i with
  | zero => simp [gf8Acc]
  | succ i ih =>
    have hpow : (gf8Power 1 i).getLsbD j = decide (i = j) := by
      rw [gf8Power_one hi, BitVec.getLsbD_twoPow, decide_eq_true (Nat.lt_of_succ_le hi), Bool.true_and]
    rw [getLsbD_gf8Acc_succ, ih (Nat.le_of_succ_le hi), hpow]
    obtain rfl | hne := eq_or_ne i j
    · simp
    · have hlt : j < i + 1 ↔ j < i := by omega
      simp [hne, hlt]

theorem gf8mul_one_left (y : Byte) : gf8mul 1 y = y := by
  refine BitVec.eq_of_getLsbD_eq fun j hj => ?_
  rw [gf8mul, getLsbD_gf8Acc_one y le_rfl, decide_eq_true hj, Bool.true_and]

/-- Every byte is a sum of doublings of 1: a property of 1 that sums and doubling keep holds of all bytes. -/
theorem gf8_induction {P : Byte → Prop} (one : P 1) (xor : ∀ x y, P x → P y → P (x ^^^ y))
    (double : ∀ x, P x → P (xtime x)) (x : Byte) : P x := by
  have hpow : ∀ i, P (gf8Power 1 i) := fun i => by
    induction i with
    | zero => exact one
    | succ i ih => exact double _ ih
  have hacc : ∀ i, P (gf8Acc 1 x i) := fun i => by
    induction i with
    | zero => exact xor 1 1 one one
    | succ i ih =>
      rw [gf8Acc]
      split
      · exact xor _ _ ih (hpow i)
      · exact ih
  exact gf8mul_one_left x ▸ hacc 8

/-! ## The product is linear in x, by its loop -/

theorem gf8Power_xor (x y : Byte) (i : Nat) : gf8Power (x ^^^ y) i = gf8Power x i ^^^ gf8Power y i := by
  induction i with
  | zero => rfl
  | succ i ih => simp only [gf8Power, ih, xtime_xor]

theorem gf8Power_xtime (x : Byte) (i : Nat) : gf8Power (xtime x) i = xtime (gf8Power x i) := by
  induction i with
  | zero => rfl
  | succ i ih => simp only [gf8Power, ih]

theorem gf8Acc_xor (x y z : Byte) (i : Nat) : gf8Acc (x ^^^ y) z i = gf8Acc x z i ^^^ gf8Acc y z i := by
  induction i with
  | zero => exact BitVec.xor_self.symm
  | succ i ih =>
    simp only [gf8Acc, ih, gf8Power_xor]
    split
    · ac_rfl
    · rfl

theorem gf8Acc_xtime (x z : Byte) (i : Nat) : gf8Acc (xtime x) z i = xtime (gf8Acc x z i) := by
  induction i with
  | zero => exact xtime_zero.symm
  | succ i ih =>
    simp only [gf8Acc, ih, gf8Power_xtime]
    split
    · rw [xtime_xor]
    · rfl

theorem gf8mul_xor_left (x y z : Byte) : gf8mul (x ^^^ y) z = gf8mul x z ^^^ gf8mul y z := gf8Acc_xor x y z 8

theorem gf8mul_xtime_left (x z : Byte) : gf8mul (xtime x) z = xtime (gf8mul x z) := gf8Acc_xtime x z 8

/-! ## The field laws, each by induction on the first factor -/

theorem gf8mul_one_right (x : Byte) : gf8mul x 1 = x := by
  induction x using gf8_induction with
  | one => exact gf8mul_one_left 1
  | xor x y hx hy => rw [gf8mul_xor_left, hx, hy]
  | double x hx => rw [gf8mul_xtime_left, hx]

theorem gf8mul_xor_right (x y z : Byte) : gf8mul x (y ^^^ z) = gf8mul x y ^^^ gf8mul x z := by
  induction x using gf8_induction with
  | one => simp only [gf8mul_one_left]
  | xor u v hu hv =>
    simp only [gf8mul_xor_left, hu, hv]
    ac_rfl
  | double u hu => simp only [gf8mul_xtime_left, hu, xtime_xor]

theorem gf8mul_xtime_right (x y : Byte) : gf8mul x (xtime y) = xtime (gf8mul x y) := by
  induction x using gf8_induction with
  | one => simp only [gf8mul_one_left]
  | xor u v hu hv => simp only [gf8mul_xor_left, hu, hv, xtime_xor]
  | double u hu => simp only [gf8mul_xtime_left, hu]

theorem gf8mul_comm (x y : Byte) : gf8mul x y = gf8mul y x := by
  induction x using gf8_induction with
  | one => rw [gf8mul_one_left, gf8mul_one_right]
  | xor u v hu hv => rw [gf8mul_xor_left, gf8mul_xor_right, hu, hv]
  | double u hu => rw [gf8mul_xtime_left, gf8mul_xtime_right, hu]

theorem gf8mul_assoc (x y z : Byte) : gf8mul (gf8mul x y) z = gf8mul x (gf8mul y z) := by
  induction x using gf8_induction with
  | one => simp only [gf8mul_one_left]
  | xor u v hu hv => simp only [gf8mul_xor_left, hu, hv]
  | double u hu => simp only [gf8mul_xtime_left, hu]

theorem gf8mul_two (x : Byte) : gf8mul x 2 = xtime x := by
  have htwo : (2 : Byte) = xtime 1 := by decide
  rw [htwo, gf8mul_xtime_right, gf8mul_one_right]

/-- 3 is 1 + 2 in the field. -/
theorem gf8mul_three (x : Byte) : gf8mul x 3 = triple x := by
  have hthree : (3 : Byte) = 1 ^^^ 2 := by decide
  rw [hthree, gf8mul_xor_right, gf8mul_one_right, gf8mul_two, triple]

/-- Settles O29: the laws of the product; the bound is the width of a byte. -/
theorem gf8FieldLaws : Obligations.Gf8FieldLaws :=
  ⟨fun x y => ⟨Nat.le_of_lt_succ (gf8mul x y).isLt, gf8mul_comm x y⟩, gf8mul_assoc,
    fun x => ⟨(gf8mul_two x).symm, (gf8mul_three x).symm⟩⟩

end Sys2Proof.Proofs
end

section
/-! The bit-field extractor (40_bitfield_gf8.md R80, R81). -/

namespace Sys2Proof.Proofs

open Sys2Proof.Machine

theorem le_of_signedFieldOk {n start width m : Nat} (h : signedFieldOk n start width m = true) : width ≤ m := by
  simp only [signedFieldOk, Bool.and_eq_true, decide_eq_true_eq] at h
  exact h.2

theorem getLsbD_extractUnsigned {n : Nat} (v : BitVec n) (start width : Nat) (h : fieldOk n start width = true)
    (i : Nat) : (extractUnsigned v start width h).getLsbD i = (decide (i < width) && v.getLsbD (start + i)) :=
  BitVec.getLsbD_extractLsb' start width v i

/-- The output is wide enough for the field, so its number does not change. -/
theorem toInt_extractSigned {n : Nat} (v : BitVec n) (start width m : Nat) (h : fieldOk n start width = true)
    (h' : signedFieldOk n start width m = true) :
    (extractSigned v start width m h').toInt = (extractUnsigned v start width h).toInt :=
  BitVec.toInt_signExtend_of_le (le_of_signedFieldOk h')

/-- A field of width 1 is its own top bit, which every bit of the output copies. -/
theorem extractSigned_one {n : Nat} (v : BitVec n) (start m : Nat) (h : signedFieldOk n start 1 m = true) :
    extractSigned v start 1 m h = if v.getLsbD start then BitVec.allOnes m else 0 := by
  refine BitVec.eq_of_getLsbD_eq fun i hi => ?_
  have htop : (v.extractLsb' start 1).msb = v.getLsbD start := by simp [BitVec.msb_eq_getLsbD_last]
  have hbit : (extractSigned v start 1 m h).getLsbD i = v.getLsbD start := by
    rw [extractSigned, BitVec.getLsbD_signExtend, decide_eq_true hi, Bool.true_and]
    split
    · obtain rfl : i = 0 := by omega
      simp
    · exact htop
  rw [hbit]
  cases v.getLsbD start <;> simp [hi]

/-- Settles O26: the field's bits, its number, and the corner cases of R80 and R81; the two examples are evaluated. -/
theorem bitFieldExtractor : Obligations.BitFieldExtractor :=
  ⟨fun _ => getLsbD_extractUnsigned, fun _ => toInt_extractSigned, fun _ _ _ => BitVec.extractLsb'_eq_self,
    fun _ => extractSigned_one, by decide, by decide⟩

end Sys2Proof.Proofs
end

section
/-! The S-box tables and their application (41_sbox.md R104 to R107). The tables are compared entry by entry in one
direction only; that they undo each other in the other direction, and that the field inverse of R106 is the only one, is
argued from there. -/

namespace Sys2Proof.Proofs

open Sys2Proof.Machine Sys2Proof.Laws

/-! ## The two tables are inverse permutations (R107) -/

/-- The tables of R100 and R101 compared at all 256 indices. -/
theorem invsbox8_leftInverse : Function.LeftInverse (invsbox8 Rom.reset) (sbox8 Rom.reset) := by
  unfold Function.LeftInverse
  decide

/-- An injective table over the finite type of bytes misses no byte. -/
theorem sbox8_surjective : Function.Surjective (sbox8 Rom.reset) :=
  Finite.surjective_of_injective invsbox8_leftInverse.injective

theorem invsbox8_rightInverse : Function.RightInverse (invsbox8 Rom.reset) (sbox8 Rom.reset) :=
  invsbox8_leftInverse.rightInverse_of_surjective sbox8_surjective

theorem sbox8_eq_iff (x y : Byte) : sbox8 Rom.reset x = y ↔ invsbox8 Rom.reset y = x :=
  ⟨fun h => h ▸ invsbox8_leftInverse x, fun h => h ▸ invsbox8_rightInverse y⟩

/-- Settles O30: the index of a byte is its entry in the other table. -/
theorem tablesAreInverse : Obligations.TablesAreInverse :=
  ⟨fun y => ⟨invsbox8 Rom.reset y, invsbox8_rightInverse y, fun x' h => ((sbox8_eq_iff x' y).mp h).symm⟩,
    fun x => ⟨invsbox8_leftInverse x, invsbox8_rightInverse x⟩⟩

/-! ## The affine definition (R106) -/

theorem gf8mul_zero_left (y : Byte) : gf8mul 0 y = 0 := by
  simpa using gf8mul_xor_left 0 0 y

/-- A field inverse is the only one. -/
theorem eq_of_gf8mul_eq_one {x y z : Byte} (hy : gf8mul x y = 1) (hz : gf8mul x z = 1) : y = z :=
  calc y = gf8mul (gf8mul z x) y := by rw [gf8mul_comm z x, hz, gf8mul_one_left]
    _ = gf8mul z (gf8mul x y) := gf8mul_assoc z x y
    _ = z := by rw [hy, gf8mul_one_right]

/-- The inverse of the affine map A of R106. -/
def sboxAffineInv (b : Byte) : Byte := b.rotateLeft 1 ^^^ b.rotateLeft 3 ^^^ b.rotateLeft 6 ^^^ 0x05#8

theorem sboxAffine_sboxAffineInv (b : Byte) : sboxAffine (sboxAffineInv b) = b := by
  revert b
  decide

/-- `inv(x)` of R106, read off the table: `SBOX[x]` with the affine map undone. -/
def gf8Inv (x : Byte) : Byte := sboxAffineInv (sbox8 Rom.reset x)

theorem sbox8_eq_sboxAffine_gf8Inv (x : Byte) : sbox8 Rom.reset x = sboxAffine (gf8Inv x) :=
  (sboxAffine_sboxAffineInv (sbox8 Rom.reset x)).symm

theorem gf8Inv_zero : gf8Inv 0 = 0 := by decide

/-- All 255 products, each evaluated. -/
theorem gf8mul_gf8Inv {x : Byte} (hx : x ≠ 0) : gf8mul x (gf8Inv x) = 1 := by
  revert x
  decide

/-- Settles O31: each entry is A of a value which the table's own entries show to be the field inverse, and there is no
other field inverse. -/
theorem sboxIsAffineOfInverse : Obligations.SboxIsAffineOfInverse := by
  refine ⟨?_, fun x hx => ⟨gf8Inv x, gf8mul_gf8Inv hx⟩, fun x y hxy => ?_, sbox8_eq_iff⟩
  · rw [sbox8_eq_sboxAffine_gf8Inv, gf8Inv_zero]
  · have hx : x ≠ 0 := by
      rintro rfl
      rw [gf8mul_zero_left] at hxy
      exact absurd hxy (by decide)
    rw [sbox8_eq_sboxAffine_gf8Inv, eq_of_gf8mul_eq_one hxy (gf8mul_gf8Inv hx)]

/-! ## Words and double words (R104, R105) -/

/-- A word built by substituting each byte in its place, whatever the substitution. -/
theorem byte_wordOfBytes_map (f : Byte → Byte) (w : Word) (j : Fin 4) :
    byte (wordOfBytes (f (byte w 0)) (f (byte w 1)) (f (byte w 2)) (f (byte w 3))) j = f (byte w j) := by
  obtain ⟨h0, h1, h2, h3⟩ := byte_wordOfBytes (f (byte w 0)) (f (byte w 1)) (f (byte w 2)) (f (byte w 3))
  match j with
  | 0 => exact h0
  | 1 => exact h1
  | 2 => exact h2
  | 3 => exact h3

theorem byte_append_zero {n : Nat} (v : BitVec n) (b : Byte) : byte (v ++ b) 0 = b :=
  BitVec.extractLsb'_append_eq_right

theorem byte_append_succ {n : Nat} (v : BitVec n) (b : Byte) (k : Nat) : byte (v ++ b) (k + 1) = byte v k := by
  rw [byte, byte, BitVec.extractLsb'_append_eq_of_le (by omega)]
  congr 1

theorem byte_self (b : Byte) : byte b 0 = b := BitVec.extractLsb'_eq_self

/-- The bytes of a double word built byte by byte. -/
theorem byte_dwordOfBytes (f : Nat → Byte) (i : Fin 8) : byte (dwordOfBytes f) i = f i := by
  unfold dwordOfBytes
  fin_cases i <;> simp only [byte_append_succ, byte_append_zero, byte_self]

theorem byte_subword (r : Rom) (w : Word) (j : Fin 4) : byte (subword r w) j = sbox8 r (byte w j) :=
  byte_wordOfBytes_map (sbox8 r) w j

theorem byte_invsubword (r : Rom) (w : Word) (j : Fin 4) : byte (invsubword r w) j = invsbox8 r (byte w j) :=
  byte_wordOfBytes_map (invsbox8 r) w j

theorem byte_sbox64 (r : Rom) (d : DWord) (i : Fin 8) : byte (sbox64 r d) i = sbox8 r (byte d i) :=
  byte_dwordOfBytes _ i

theorem byte_invsbox64 (r : Rom) (d : DWord) (i : Fin 8) : byte (invsbox64 r d) i = invsbox8 r (byte d i) :=
  byte_dwordOfBytes _ i

/-- Settles O32: byte by byte for any ROMs; the examples are evaluated. -/
theorem wordSubstitution : Obligations.WordSubstitution :=
  ⟨fun r w j => ⟨byte_subword r w j, byte_invsubword r w j⟩,
    fun r d i => ⟨byte_sbox64 r d i, byte_invsbox64 r d i⟩, by decide⟩

end Sys2Proof.Proofs
end

section
/-! The state transforms (42_state_transforms.md R120 to R126). ShiftRows and SubBytes are read byte by byte, MixColumns
column by column. A column is a polynomial over GF(2^8) modulo X^4 + 1, byte k its coefficient of X^k, and the two
matrices multiply by two fixed polynomials whose own product is 1. -/

namespace Sys2Proof.Proofs

open Sys2Proof.Machine Sys2Proof.Laws

/-! ## ShiftRows (R120, R121) -/

theorem byte_shiftrows (v : Block) {k : Nat} (hk : k < 16) :
    byte (shiftrows v) k = byte v (4 * ((k / 4 + k % 4) % 4) + k % 4) :=
  byte_ofBytes _ k hk

theorem byte_invshiftrows (v : Block) {k : Nat} (hk : k < 16) :
    byte (invshiftrows v) k = byte v (4 * ((k / 4 + 4 - k % 4) % 4) + k % 4) :=
  byte_ofBytes _ k hk

/-- Row r of column i comes from r columns further on. -/
theorem byte_shiftrows_column (v : Block) {i r : Nat} (hi : i < 4) (hr : r < 4) :
    byte (shiftrows v) (4 * i + r) = byte v (4 * ((i + r) % 4) + r) := by
  rw [byte_shiftrows v (by omega)]
  congr 1
  omega

/-- Row r of column i comes from r columns further back; the remainder of the difference lies in 0..3. -/
theorem byte_invshiftrows_column (v : Block) {i r : Nat} (hi : i < 4) (hr : r < 4) :
    byte (invshiftrows v) (4 * i + r) = byte v (4 * (((i : Int) - r) % 4).toNat + r) := by
  rw [byte_invshiftrows v (by omega)]
  congr 1
  omega

theorem byte_shiftrows_row_zero (v : Block) {i : Nat} (hi : i < 4) : byte (shiftrows v) (4 * i) = byte v (4 * i) := by
  rw [byte_shiftrows v (by omega)]
  congr 1
  omega

theorem byte_invshiftrows_row_zero (v : Block) {i : Nat} (hi : i < 4) :
    byte (invshiftrows v) (4 * i) = byte v (4 * i) := by
  rw [byte_invshiftrows v (by omega)]
  congr 1
  omega

/-- Settles O34: the source bytes by column and row; the two examples are evaluated. -/
theorem shiftRowsMoveBytes : Obligations.ShiftRowsMoveBytes :=
  ⟨fun v i r => ⟨byte_shiftrows_column v i.isLt r.isLt, byte_invshiftrows_column v i.isLt r.isLt,
    byte_shiftrows_row_zero v i.isLt, byte_invshiftrows_row_zero v i.isLt⟩, by decide⟩

/-- The inverse takes byte k from where ShiftRows moved it to. -/
theorem invshiftrows_shiftrows (x : Block) : invshiftrows (shiftrows x) = x := by
  refine eq_of_bytes fun k hk => ?_
  rw [byte_invshiftrows _ hk, byte_shiftrows x (by omega)]
  congr 1
  omega

/-! ## SubBytes (R122) -/

theorem byte_subbytes (r : Rom) (v : Block) {k : Nat} (hk : k < 16) : byte (subbytes r v) k = sbox8 r (byte v k) :=
  byte_ofBytes _ k hk

theorem byte_invsubbytes (r : Rom) (v : Block) {k : Nat} (hk : k < 16) :
    byte (invsubbytes r v) k = invsbox8 r (byte v k) :=
  byte_ofBytes _ k hk

/-- Settles O36: byte by byte for any ROMs; the corner cases and the example are evaluated. -/
theorem subBytesKeepPositions : Obligations.SubBytesKeepPositions :=
  ⟨fun r v k => ⟨byte_subbytes r v k.isLt, byte_invsubbytes r v k.isLt⟩, by decide⟩

/-- The two tables undo each other in every place (R107). -/
theorem invsubbytes_subbytes (x : Block) : invsubbytes Rom.reset (subbytes Rom.reset x) = x := by
  refine eq_of_bytes fun k hk => ?_
  rw [byte_invsubbytes _ _ hk, byte_subbytes _ _ hk, invsbox8_leftInverse]

/-! ## The columns of a block (R123) -/

/-- A block built by mapping each column in its place, whatever the map. -/
theorem col_ofWords_map (f : Word → Word) (v : Block) (i : Fin 4) :
    col (ofWords (f (col v 0)) (f (col v 1)) (f (col v 2)) (f (col v 3))) i = f (col v i) := by
  obtain ⟨h0, h1, h2, h3⟩ := col_ofWords (f (col v 0)) (f (col v 1)) (f (col v 2)) (f (col v 3))
  match i with
  | 0 => exact h0
  | 1 => exact h1
  | 2 => exact h2
  | 3 => exact h3

theorem col_mixcolumns (v : Block) (i : Fin 4) : col (mixcolumns v) i = mixColumn (col v i) :=
  col_ofWords_map mixColumn v i

theorem col_invmixcolumns (v : Block) (i : Fin 4) : col (invmixcolumns v) i = invMixColumn (col v i) :=
  col_ofWords_map invMixColumn v i

/-- A block is what its four columns are. -/
theorem eq_of_cols {v w : Block} (h : ∀ i : Fin 4, col v i = col w i) : v = w := by
  refine eq_of_bytes fun k hk => ?_
  have hi : k / 4 < 4 := by omega
  have hr : k % 4 < 4 := by omega
  rw [← Nat.div_add_mod k 4, ← byte_col v _ _ hr, ← byte_col w _ _ hr]
  exact congrArg (byte · (k % 4)) (h ⟨k / 4, hi⟩)

/-- A word is built of its own bytes. -/
theorem wordOfBytes_bytes (w : Word) : wordOfBytes (byte w 0) (byte w 1) (byte w 2) (byte w 3) = w := by
  refine BitVec.eq_of_getLsbD_eq fun i hi => ?_
  simp only [wordOfBytes, byte, BitVec.getLsbD_append, BitVec.getLsbD_extractLsb']
  interval_cases i <;> rfl

/-! ## Columns as polynomials -/

/-- A row of a matrix over GF(2^8) times a column. -/
def rowMul (w : Word) (c0 c1 c2 c3 : Byte) : Byte :=
  gf8mul (byte w 0) c0 ^^^ gf8mul (byte w 1) c1 ^^^ gf8mul (byte w 2) c2 ^^^ gf8mul (byte w 3) c3

/-- The product of two columns as polynomials modulo X^4 + 1: the matrix with first column c, each later row rotated one
place to the right, times w. -/
def colMul (w c : Word) : Word :=
  wordOfBytes
    (rowMul w (byte c 0) (byte c 3) (byte c 2) (byte c 1))
    (rowMul w (byte c 1) (byte c 0) (byte c 3) (byte c 2))
    (rowMul w (byte c 2) (byte c 1) (byte c 0) (byte c 3))
    (rowMul w (byte c 3) (byte c 2) (byte c 1) (byte c 0))

/-- The polynomial of forward MixColumns, 3 X^3 + X^2 + X + 2: the first column of the matrix of R124. -/
def mixPoly : Word := wordOfBytes 2 1 1 3

/-- The polynomial of inverse MixColumns, 11 X^3 + 13 X^2 + 9 X + 14: the first column of the matrix of R125. -/
def invMixPoly : Word := wordOfBytes 14 9 13 11

theorem mixColumn_eq_colMul (w : Word) : mixColumn w = colMul w mixPoly := by
  simp only [mixColumn, colMul, rowMul, mixPoly, byte_wordOfBytes, gf8mul_one_right, gf8mul_two, gf8mul_three]

theorem invMixColumn_eq_colMul (w : Word) : invMixColumn w = colMul w invMixPoly := by
  simp only [invMixColumn, colMul, rowMul, invMixPoly, byte_wordOfBytes]

theorem gf8mul_zero_right (x : Byte) : gf8mul x 0 = 0#8 := (gf8mul_comm x 0).trans (gf8mul_zero_left x)

/-- The constant polynomial 1 is neutral. -/
theorem colMul_one (w : Word) : colMul w (wordOfBytes 1 0 0 0) = w := by
  simp only [colMul, rowMul, byte_wordOfBytes, gf8mul_one_right, gf8mul_zero_right, BitVec.zero_xor, BitVec.xor_zero,
    wordOfBytes_bytes]

/-- Both sides are sums of the same 16 products in each byte. -/
theorem colMul_assoc (w c d : Word) : colMul (colMul w c) d = colMul w (colMul c d) := by
  simp only [colMul, rowMul, byte_wordOfBytes, gf8mul_xor_left, gf8mul_xor_right, gf8mul_assoc]
  congr 1 <;> ac_rfl

theorem colMul_mixPoly_invMixPoly : colMul mixPoly invMixPoly = wordOfBytes 1 0 0 0 := by decide

theorem invMixColumn_mixColumn (w : Word) : invMixColumn (mixColumn w) = w :=
  calc invMixColumn (mixColumn w) = colMul (colMul w mixPoly) invMixPoly := by
        rw [invMixColumn_eq_colMul, mixColumn_eq_colMul]
    _ = colMul w (wordOfBytes 1 0 0 0) := by rw [colMul_assoc, colMul_mixPoly_invMixPoly]
    _ = w := colMul_one w

/-! ## Columns of equal bytes -/

/-- A polynomial whose coefficients sum to 1 keeps a column of equal bytes: each row of its matrix sums the same four
coefficients. -/
theorem colMul_of_equal_bytes {w c : Word} {x : Byte} (hw : ∀ r : Fin 4, byte w r = x)
    (hc : byte c 0 ^^^ byte c 1 ^^^ byte c 2 ^^^ byte c 3 = 1) : colMul w c = w := by
  have h0 : byte w 0 = x := hw 0
  have h1 : byte w 1 = x := hw 1
  have h2 : byte w 2 = x := hw 2
  have h3 : byte w 3 = x := hw 3
  have hrow {c0 c1 c2 c3 : Byte} (hsum : c0 ^^^ c1 ^^^ c2 ^^^ c3 = 1) : rowMul w c0 c1 c2 c3 = x := by
    simp only [rowMul, h0, h1, h2, h3, ← gf8mul_xor_right, hsum, gf8mul_one_right]
  calc colMul w c = wordOfBytes x x x x := by
        unfold colMul
        congr 1 <;> exact hrow (Eq.trans (by ac_rfl) hc)
    _ = w := by rw [← wordOfBytes_bytes w, h0, h1, h2, h3]

theorem mixColumn_of_equal_bytes {w : Word} {x : Byte} (hw : ∀ r : Fin 4, byte w r = x) : mixColumn w = w := by
  rw [mixColumn_eq_colMul, colMul_of_equal_bytes hw (by decide)]

/-- R125's reason: 14 ^ 11 ^ 13 ^ 9 = 1. -/
theorem invMixColumn_of_equal_bytes {w : Word} {x : Byte} (hw : ∀ r : Fin 4, byte w r = x) : invMixColumn w = w := by
  rw [invMixColumn_eq_colMul, colMul_of_equal_bytes hw (by decide)]

/-! ## MixColumns (R123 to R125) and the round trips (R126) -/

theorem mixColumn_example : mixColumn 0x455313DB = 0xBCA14D8E := by decide

theorem invMixColumn_example : invMixColumn 0xBCA14D8E = 0x455313DB := by
  rw [← mixColumn_example, invMixColumn_mixColumn]

/-- Settles O37: each clause is about one column, where it is a fact about `mixColumn`; the two fixed blocks are
evaluated. -/
theorem mixColumnsPerColumn : Obligations.MixColumnsPerColumn := by
  refine ⟨fun v i => ?_, fun v w i h => ?_, fun v i x hx => ?_, by decide, by decide, fun v i h => ?_⟩
  · rw [col_mixcolumns]
    exact byte_wordOfBytes _ _ _ _
  · rw [col_mixcolumns, col_mixcolumns, h]
  · rw [col_mixcolumns, mixColumn_of_equal_bytes hx]
  · rw [col_mixcolumns, h, mixColumn_example]

/-- Settles O38: each clause is about one column, where it is a fact about `invMixColumn`. -/
theorem invMixColumnsPerColumn : Obligations.InvMixColumnsPerColumn := by
  refine ⟨fun v i => ?_, fun v i x hx => ?_, fun v i h => ?_⟩
  · rw [col_invmixcolumns]
    exact byte_wordOfBytes _ _ _ _
  · rw [col_invmixcolumns, invMixColumn_of_equal_bytes hx]
  · rw [col_invmixcolumns, h, invMixColumn_example]

theorem invmixcolumns_mixcolumns (x : Block) : invmixcolumns (mixcolumns x) = x :=
  eq_of_cols fun i => by rw [col_invmixcolumns, col_mixcolumns, invMixColumn_mixColumn]

/-- Settles O40: the three round trips, and for each of the other two transforms the block 1, a single nonzero byte,
where the order matters. -/
theorem transformRoundTrips : Obligations.TransformRoundTrips :=
  ⟨fun x => ⟨invshiftrows_shiftrows x, invsubbytes_subbytes x, invmixcolumns_mixcolumns x⟩, ⟨1, by decide⟩,
    ⟨1, by decide⟩⟩

end Sys2Proof.Proofs
end

section
/-! The key schedule (43_key_schedule.md R140 to R148): the round constants, RotWord, and the two operations. The result
of each is the same chain of XORs over four words, and its first word depends on the round index. -/

namespace Sys2Proof.Proofs

open Sys2Proof.Machine Sys2Proof.Laws

/-! ## Round constants (R140, R141) -/

theorem rcon_of_outside {i : Int} (h : i < 0 ∨ 9 < i) : rcon i = 0x00 := by
  cases i with
  | ofNat n =>
    rw [Int.ofNat_eq_natCast] at h
    obtain ⟨m, rfl⟩ : ∃ m, n = m + 10 := ⟨n - 10, by omega⟩
    rfl
  | negSucc n => rfl

/-- Settles O43: the ten constants are evaluated; outside 0..9 the decode takes its last line. -/
theorem roundConstants : Obligations.RoundConstants := ⟨by decide, fun _ => rcon_of_outside⟩

theorem rconWord_of_outside {i : Int} (h : i < 0 ∨ 9 < i) : rconWord i = 0#32 := by
  rw [rconWord, rcon_of_outside h]
  rfl

theorem toNat_rconWord (i : Int) : (rconWord i).toNat = (rcon i).toNat := BitVec.toNat_setWidth_of_le (by decide)

theorem byte_rconWord_zero (i : Int) : byte (rconWord i) 0 = rcon i := by
  refine BitVec.eq_of_getLsbD_eq fun j hj => ?_
  have hj' : j < 32 := by omega
  simp [byte, rconWord, hj, hj']

/-- The bits above the constant are zeros. -/
theorem byte_rconWord_succ (i : Int) (k : Nat) : byte (rconWord i) (k + 1) = 0#8 := by
  refine BitVec.eq_of_getLsbD_eq fun j _ => ?_
  have habove : (rcon i).getLsbD (8 * (k + 1) + j) = false := BitVec.getLsbD_of_ge _ _ (by omega)
  simp [byte, rconWord, habove]

/-- A byte of a word other than byte 0 does not see the round constant (R141). -/
theorem byte_xor_rconWord_succ (i : Int) (w : Word) (k : Nat) : byte (w ^^^ rconWord i) (k + 1) = byte w (k + 1) := by
  rw [byte_xor, byte_rconWord_succ, BitVec.xor_zero]

/-! ## RotWord (R142) -/

/-- Bit i of the rotation is bit i+8, and the top eight bits are the bits of byte 0. -/
theorem rotword_eq_rotateRight (w : Word) : rotword w = w.rotateRight 8 := by
  refine BitVec.eq_of_getLsbD_eq fun i hi => ?_
  simp only [rotword, wordOfBytes, byte, BitVec.getLsbD_append, BitVec.getLsbD_extractLsb', BitVec.getLsbD_rotateRight]
  interval_cases i <;> rfl

/-- Settles O44: the constant is byte 0 of its word and XOR acts on each byte; the concatenation is RotWord's
definition. -/
theorem roundConstantWordAndRotWord : Obligations.RoundConstantWordAndRotWord := by
  refine ⟨fun i w => ⟨toNat_rconWord i, ?_, byte_xor_rconWord_succ i w 0, byte_xor_rconWord_succ i w 1,
    byte_xor_rconWord_succ i w 2⟩, fun w => ⟨rfl, rotword_eq_rotateRight w⟩, by decide⟩
  rw [byte_xor, byte_rconWord_zero]

/-! ## The XOR chain of both phases (R143, R144) -/

theorem col_xorChain (t : Word) (v : Block) :
    col (xorChain t v) 0 = t ^^^ col v 0 ∧ col (xorChain t v) 1 = col (xorChain t v) 0 ^^^ col v 1 ∧
      col (xorChain t v) 2 = col (xorChain t v) 1 ^^^ col v 2 ∧
      col (xorChain t v) 3 = col (xorChain t v) 2 ^^^ col v 3 := by
  simp only [xorChain, col_ofWords, and_self]

/-! ## AESKF1 (R143, R147) -/

theorem exec_aeskf1_of_reset {s : State} (hs : s.rom = Rom.reset) {a b c v : Block}
    (h : kf1 Rom.reset b (rnd c) = v) : exec (.aeskf1 a b c) s = .next (s.answer v) := by
  rw [exec_aeskf1, hs, h]

/-- Phase 1 by c: the chain over b itself. -/
theorem kf1_rnd (r : Rom) (b c : Block) : kf1 r b (rnd c) =
    xorChain (subword r (rotword (col b 3)) ^^^ rconWord (c.toNat % 16 : Nat)) b := by
  rw [kf1, toNat_rnd]

/-- Settles O55: the chain of phase 1, where an index of 10 to 15 has no constant; the corner cases and the examples are
evaluated. -/
theorem aeskf1Result : Obligations.Aeskf1Result := by
  refine ⟨fun a b c s => ?_, fun a s hs => ⟨exec_aeskf1_of_reset hs (by decide), exec_aeskf1_of_reset hs (by decide),
    exec_aeskf1_of_reset hs (by decide), exec_aeskf1_of_reset hs (by decide), exec_aeskf1_of_reset hs (by decide)⟩⟩
  rw [exec_aeskf1, kf1_rnd]
  obtain ⟨hw0, hw1, hw2, hw3⟩ := col_xorChain (subword s.rom (rotword (col b 3)) ^^^ rconWord (c.toNat % 16 : Nat)) b
  refine ⟨_, rfl, hw0, hw1, hw2, hw3, fun hc => ?_⟩
  rw [hw0, rconWord_of_outside (.inr (by omega)), BitVec.xor_zero]

/-! ## AESKF2 (R144, R148) -/

theorem exec_aeskf2_of_reset {s : State} (hs : s.rom = Rom.reset) {a b c v : Block}
    (h : kf2 Rom.reset a b (rnd c) = v) : exec (.aeskf2 a b c) s = .next (s.answer v) := by
  rw [exec_aeskf2, hs, h]

/-- The round number is odd as c is. -/
theorem getLsbD_zero_rnd (c : Block) : (rnd c).getLsbD 0 = decide (c.toNat % 2 = 1) := by
  have hmod : c.toNat % 16 % 2 = c.toNat % 2 := by omega
  rw [BitVec.getLsbD, toNat_rnd, Nat.testBit_zero, hmod]

/-- An odd round number: SubWord alone. -/
theorem kf2Word_rnd_of_odd (r : Rom) (b : Block) {c : Block} (h : c.toNat % 2 = 1) :
    kf2Word r b (rnd c) = subword r (col b 3) :=
  if_pos (by rw [getLsbD_zero_rnd, decide_eq_true h])

/-- An even round number: RotWord, and the constant of half the round number less one. -/
theorem kf2Word_rnd_of_even (r : Rom) (b : Block) {c : Block} (h : c.toNat % 2 = 0) :
    kf2Word r b (rnd c) =
      subword r (rotword (col b 3)) ^^^ rconWord (((c.toNat % 16 / 2 : Nat) : Int) - 1) := by
  have heven : ¬(rnd c).getLsbD 0 = true := by
    rw [getLsbD_zero_rnd, decide_eq_true_eq, h]
    decide
  rw [kf2Word, if_neg heven, BitVec.toNat_ushiftRight, toNat_rnd, Nat.shiftRight_eq_div_pow, pow_one]

/-- Settles O56: the chain of phase 2 with the word t of an odd or an even round number; it is the same word for all odd
numbers; the corner cases and the examples are evaluated. -/
theorem aeskf2Result : Obligations.Aeskf2Result := by
  refine ⟨fun a b c s => ?_, fun a b c c' s hc hc' => ?_, fun s hs => ⟨exec_aeskf2_of_reset hs (by decide),
    exec_aeskf2_of_reset hs (by decide), exec_aeskf2_of_reset hs (by decide), exec_aeskf2_of_reset hs (by decide),
    exec_aeskf2_of_reset hs (by decide)⟩⟩
  · rw [exec_aeskf2, kf2]
    obtain ⟨hw0, hw1, hw2, hw3⟩ := col_xorChain (kf2Word s.rom b (rnd c)) a
    refine ⟨_, rfl, fun hc => ?_, fun hc => ?_, fun hc => ?_, fun hc => ?_, hw1, hw2, hw3⟩
    · rw [hw0, kf2Word_rnd_of_odd s.rom b hc]
    · rw [hw0, kf2Word_rnd_of_even s.rom b hc, rconWord]
    · rw [hw0, kf2Word_rnd_of_even s.rom b (by omega), hc, rconWord_of_outside (.inl (by decide)), BitVec.xor_zero]
    · have hconst : rconWord ((14 / 2 : Nat) - 1) = 0x40 := by decide
      rw [hw0, kf2Word_rnd_of_even s.rom b (by omega), hc, hconst]
  · rw [exec_aeskf2, exec_aeskf2, kf2, kf2, kf2Word_rnd_of_odd s.rom b hc, kf2Word_rnd_of_odd s.rom b hc']

end Sys2Proof.Proofs
end

section
/-! The GF(2^128) multiplier, GMUL and GHSH (44_gf128.md R160 to R165). Bit reversal undoes itself, so the zeros and the
two identities of `gf128mul` are those of the loop `clmulReduce`, where the identity is 1. -/

namespace Sys2Proof.Proofs

open Sys2Proof.Machine Sys2Proof.Laws

/-! ## Bit reversal (R160) -/

theorem getLsbD_byte {n : Nat} (v : BitVec n) (k : Nat) {j : Nat} (hj : j < 8) :
    (byte v k).getLsbD j = v.getLsbD (8 * k + j) := by
  rw [byte, BitVec.getLsbD_extractLsb', decide_eq_true hj, Bool.true_and]

theorem byte_brev8 (v : Block) {k : Nat} (hk : k < 16) : byte (brev8 v) k = (byte v k).reverse := byte_ofBytes _ k hk

theorem getLsbD_brev8 (v : Block) {k j : Nat} (hk : k < 16) (hj : j < 8) :
    (brev8 v).getLsbD (8 * k + j) = v.getLsbD (8 * k + 7 - j) :=
  calc (brev8 v).getLsbD (8 * k + j) = (byte v k).getMsbD j := by
        rw [← getLsbD_byte _ _ hj, byte_brev8 v hk, BitVec.getLsbD_reverse]
    _ = (byte v k).getLsbD (7 - j) := by rw [BitVec.getMsbD, decide_eq_true hj, Bool.true_and]
    _ = v.getLsbD (8 * k + 7 - j) := by rw [getLsbD_byte _ _ (by omega), ← Nat.add_sub_assoc (by omega)]

/-- Settles O46: each bit by its byte and its place in it; the examples are evaluated. -/
theorem bitReversalPerByte : Obligations.BitReversalPerByte :=
  ⟨fun v k j => getLsbD_brev8 v k.isLt j.isLt, by decide⟩

theorem brev8_brev8 (v : Block) : brev8 (brev8 v) = v := by
  refine eq_of_bytes fun k hk => ?_
  rw [byte_brev8 _ hk, byte_brev8 _ hk, BitVec.reverse_reverse_eq]

theorem brev8_zero : brev8 0 = 0 := by decide

/-- The value 0x80 is the field element 1. -/
theorem brev8_identity : brev8 0x80 = 1 := by decide

/-! ## The loop, bit by bit (R161) -/

theorem clmulZ_succ_of_bit {s : Block} {i : Nat} (hs : s.getLsbD i = true) (h : Block) :
    clmulZ s h (i + 1) = clmulZ s h i ^^^ clmulV h i := if_pos hs

theorem clmulZ_succ_of_not_bit {s : Block} {i : Nat} (hs : s.getLsbD i = false) (h : Block) :
    clmulZ s h (i + 1) = clmulZ s h i := by rw [clmulZ, hs, if_neg Bool.false_ne_true]

theorem getLsbD_clmulZ_succ (s h : Block) (i j : Nat) : (clmulZ s h (i + 1)).getLsbD j =
    ((clmulZ s h i).getLsbD j ^^ (s.getLsbD i && (clmulV h i).getLsbD j)) := by
  cases hs : s.getLsbD i with
  | true => rw [clmulZ_succ_of_bit hs, BitVec.getLsbD_xor, Bool.true_and]
  | false => rw [clmulZ_succ_of_not_bit hs, Bool.false_and, Bool.xor_false]

/-! ## The loop with an operand 0 -/

theorem clmulZ_zero_left (h : Block) (i : Nat) : clmulZ 0 h i = 0 := by
  induction i with
  | zero => rfl
  | succ i ih => exact (clmulZ_succ_of_not_bit BitVec.getLsbD_zero h).trans ih

theorem clmulDouble_zero : clmulDouble 0 = 0 := by decide

theorem clmulV_zero (i : Nat) : clmulV 0 i = 0 := by
  induction i with
  | zero => rfl
  | succ i ih => rw [clmulV, ih, clmulDouble_zero]

theorem clmulZ_zero_right (s : Block) (i : Nat) : clmulZ s 0 i = 0 := by
  induction i with
  | zero => rfl
  | succ i ih => rw [clmulZ, ih, clmulV_zero, BitVec.xor_self, BitVec.ofNat_eq_ofNat, ite_self]

/-! ## The loop with an operand 1 -/

/-- Only bit 0 of the scanned operand 1 adds to Z. -/
theorem clmulZ_one_left (h : Block) (i : Nat) : clmulZ 1 h (i + 1) = h := by
  induction i with
  | zero => exact BitVec.zero_xor
  | succ i ih =>
    have hbit : (1 : Block).getLsbD (i + 1) = false := by simp
    exact (clmulZ_succ_of_not_bit hbit h).trans ih

/-- Below the top bit doubling is a shift. -/
theorem clmulDouble_twoPow {i : Nat} (hi : i + 1 < 128) :
    clmulDouble (BitVec.twoPow 128 i) = BitVec.twoPow 128 (i + 1) := by
  have hbit : (BitVec.twoPow 128 i).getLsbD 127 = false := by
    rw [BitVec.getLsbD_twoPow, decide_eq_false (show i ≠ 127 by omega), Bool.and_false]
  rw [clmulDouble, hbit, if_neg Bool.false_ne_true, BitVec.twoPow, BitVec.twoPow, BitVec.shiftLeft_add]

theorem clmulV_one {i : Nat} (hi : i < 128) : clmulV 1 i = BitVec.twoPow 128 i := by
  induction i with
  | zero => rfl
  | succ i ih => rw [clmulV, ih (Nat.lt_of_succ_lt hi), clmulDouble_twoPow hi]

/-- With H = 1 the accumulator holds the bits of S that were scanned. -/
theorem getLsbD_clmulZ_one_right (s : Block) {i : Nat} (hi : i ≤ 128) (j : Nat) :
    (clmulZ s 1 i).getLsbD j = (decide (j < i) && s.getLsbD j) := by
  induction i with
  | zero => simp [clmulZ]
  | succ i ih =>
    have hpow : (clmulV 1 i).getLsbD j = decide (i = j) := by
      rw [clmulV_one hi, BitVec.getLsbD_twoPow, decide_eq_true (Nat.lt_of_succ_le hi), Bool.true_and]
    rw [getLsbD_clmulZ_succ, ih (Nat.le_of_succ_le hi), hpow]
    obtain rfl | hne := eq_or_ne i j
    · simp
    · have hlt : j < i + 1 ↔ j < i := by omega
      simp [hne, hlt]

theorem clmulReduce_one_right (s : Block) : clmulReduce s 1 = s := by
  refine BitVec.eq_of_getLsbD_eq fun j hj => ?_
  rw [clmulReduce, getLsbD_clmulZ_one_right s le_rfl, decide_eq_true hj, Bool.true_and]

/-! ## The product (R162, R163) -/

theorem gf128mul_zero_left (b : Block) : gf128mul 0 b = 0 := by
  rw [gf128mul, brev8_zero, clmulReduce, clmulZ_zero_left, brev8_zero]

theorem gf128mul_zero_right (a : Block) : gf128mul a 0 = 0 := by
  rw [gf128mul, brev8_zero, clmulReduce, clmulZ_zero_right, brev8_zero]

theorem gf128mul_identity_left (b : Block) : gf128mul 0x80 b = b := by
  rw [gf128mul, brev8_identity, clmulReduce, clmulZ_one_left, brev8_brev8]

theorem gf128mul_identity_right (a : Block) : gf128mul a 0x80 = a := by
  rw [gf128mul, brev8_identity, clmulReduce_one_right, brev8_brev8]

/-- x^127 times x is x^128, which the field polynomial reduces to x^7 + x^2 + x + 1 (R164). -/
theorem gf128mul_reduction : gf128mul 0x01000000000000000000000000000000 0x40 = 0xE1 := by decide +kernel

theorem gf128mul_top_square : gf128mul 0x01000000000000000000000000000000 0x01000000000000000000000000000000 =
    0x030000000000000000000000000008E6 := by decide +kernel

theorem gf128mul_allOnes_square : gf128mul (BitVec.allOnes 128) (BitVec.allOnes 128) =
    0xAAAAAAAAAAAAAAAAAAAAAAAAAAAA02F4 := by decide +kernel

/-- GCM test case 2, the first block (R164, R165). -/
theorem gf128mul_gcm_block :
    gf128mul (fips 0x0388dace60b6a392f328c2b971b2fe78) (fips 0x66e94bd4ef8a2c3b884cfa59ca342b2e) =
      fips 0x5e2ec746917062882c85b0685353deb7 := by decide +kernel

/-- GCM test case 2, the length block folded into the hash of the first block (R165). -/
theorem gf128mul_gcm_lengthBlock :
    gf128mul (fips 0x5e2ec746917062882c85b0685353deb7 ^^^ fips 0x00000000000000000000000000000080)
      (fips 0x66e94bd4ef8a2c3b884cfa59ca342b2e) = fips 0xf38cbb1ad69223dcc3457ae5b6b0f885 := by decide +kernel

/-! ## GMUL and GHSH (R164, R165) -/

theorem exec_gmul (a b c : Block) (s : State) : exec (.gmul a b c) s = .next (s.answer (gf128mul a b)) := rfl

theorem exec_ghsh (a b c : Block) (s : State) : exec (.ghsh a b c) s = .next (s.answer (gf128mul (a ^^^ c) b)) := rfl

/-- Settles O53: the corner cases are the zeros and the left identity of the product; the fixed products are
evaluated. -/
theorem gmulResult : Obligations.GmulResult := by
  refine fun a b c s => ⟨_, exec_gmul a b c s, rfl, ?_, ?_, ?_, ?_, ?_, ?_⟩
  · rintro (rfl | rfl)
    · exact gf128mul_zero_left b
    · exact gf128mul_zero_right a
  · rintro rfl
    exact gf128mul_identity_left b
  · rintro rfl rfl
    exact gf128mul_reduction
  · rintro rfl rfl
    exact gf128mul_top_square
  · rintro rfl rfl
    exact gf128mul_allOnes_square
  · rintro rfl rfl
    exact gf128mul_gcm_block

/-- Settles O54: the corner cases are those of the product of a ^ c and b, where XOR with c = 0 or c = a is neutral or
gives 0; the fixed products are evaluated. -/
theorem ghshResult : Obligations.GhshResult := by
  refine fun a b c s => ⟨_, exec_ghsh a b c s, rfl, ?_, ?_, ?_, ?_, ?_, ?_⟩
  · rintro rfl
    rw [exec_ghsh, exec_gmul, BitVec.ofNat_eq_ofNat, BitVec.xor_zero]
  · rintro rfl
    rw [BitVec.xor_self]
    exact gf128mul_zero_left b
  · rintro rfl
    exact gf128mul_zero_right (a ^^^ c)
  · rintro rfl
    exact gf128mul_identity_right (a ^^^ c)
  · rintro rfl rfl rfl
    rw [BitVec.ofNat_eq_ofNat, BitVec.zero_xor]
    exact gf128mul_gcm_block
  · rintro rfl rfl rfl
    exact gf128mul_gcm_lengthBlock

end Sys2Proof.Proofs
end

section
/-! The AES round operations (45_aes_round.md R180 to R184). A round is read byte by byte: ShiftRows and SubBytes name
the source byte of each place, MixColumns combines the four bytes of a column, and the round key is XORed in place. -/

namespace Sys2Proof.Proofs

open Sys2Proof.Machine Sys2Proof.Laws

/-! ## The units composed, byte by byte -/

/-- SubBytes then ShiftRows: row k of column i is substituted from k columns further on. -/
theorem byte_shiftrows_subbytes (r : Rom) (a : Block) {i k : Nat} (hi : i < 4) (hk : k < 4) :
    byte (shiftrows (subbytes r a)) (4 * i + k) = sbox8 r (byte a (4 * ((i + k) % 4) + k)) := by
  rw [byte_shiftrows_column _ hi hk, byte_subbytes r a (by omega)]

/-- Inverse ShiftRows then inverse SubBytes: row k of column i is substituted from k columns further back. -/
theorem byte_invsubbytes_invshiftrows (r : Rom) (a : Block) {i k : Nat} (hi : i < 4) (hk : k < 4) :
    byte (invsubbytes r (invshiftrows a)) (4 * i + k) = invsbox8 r (byte a (4 * ((i + 4 - k) % 4) + k)) := by
  have hdiv : (4 * i + k) / 4 = i := by omega
  have hmod : (4 * i + k) % 4 = k := by omega
  rw [byte_invsubbytes r _ (by omega), byte_invshiftrows a (by omega), hdiv, hmod]

section Column

variable {v : Block} {i : Fin 4} {t : Nat → Byte} (ht : ∀ k < 4, byte v (4 * i + k) = t k)

include ht

theorem byte_col_of_bytes {k : Nat} (hk : k < 4) : byte (col v i) k = t k := by rw [byte_col v i k hk, ht k hk]

/-- A column of forward MixColumns by its place in the block, from the bytes t of the column it was (R124). -/
theorem bytes_mixcolumns :
    byte (mixcolumns v) (4 * i) = xtime (t 0) ^^^ triple (t 1) ^^^ t 2 ^^^ t 3 ∧
    byte (mixcolumns v) (4 * i + 1) = t 0 ^^^ xtime (t 1) ^^^ triple (t 2) ^^^ t 3 ∧
    byte (mixcolumns v) (4 * i + 2) = t 0 ^^^ t 1 ^^^ xtime (t 2) ^^^ triple (t 3) ∧
    byte (mixcolumns v) (4 * i + 3) = triple (t 0) ^^^ t 1 ^^^ t 2 ^^^ xtime (t 3) := by
  have hcol := mixColumnsPerColumn.1 v i
  simp only [byte_col_of_bytes ht, byte_col (mixcolumns v), Nat.reduceLT, Nat.add_zero] at hcol
  exact hcol

/-- A column of inverse MixColumns by its place in the block, from the bytes t of the column it was (R125). -/
theorem bytes_invmixcolumns :
    byte (invmixcolumns v) (4 * i) = gf8mul (t 0) 14 ^^^ gf8mul (t 1) 11 ^^^ gf8mul (t 2) 13 ^^^ gf8mul (t 3) 9 ∧
    byte (invmixcolumns v) (4 * i + 1) = gf8mul (t 0) 9 ^^^ gf8mul (t 1) 14 ^^^ gf8mul (t 2) 11 ^^^ gf8mul (t 3) 13 ∧
    byte (invmixcolumns v) (4 * i + 2) = gf8mul (t 0) 13 ^^^ gf8mul (t 1) 9 ^^^ gf8mul (t 2) 14 ^^^ gf8mul (t 3) 11 ∧
    byte (invmixcolumns v) (4 * i + 3) =
      gf8mul (t 0) 11 ^^^ gf8mul (t 1) 13 ^^^ gf8mul (t 2) 9 ^^^ gf8mul (t 3) 14 := by
  have hcol := invMixColumnsPerColumn.1 v i
  simp only [byte_col_of_bytes ht, byte_col (invmixcolumns v), Nat.reduceLT, Nat.add_zero] at hcol
  exact hcol

end Column

/-! ## The operations -/

theorem exec_aesdm (a b c : Block) (s : State) : exec (.aesdm a b c) s = .next (s.answer (resAesdm s.rom a b)) := rfl

theorem exec_aesdf (a b c : Block) (s : State) : exec (.aesdf a b c) s = .next (s.answer (resAesdf s.rom a b)) := rfl

theorem exec_aesem (a b c : Block) (s : State) : exec (.aesem a b c) s = .next (s.answer (resAesem s.rom a b)) := rfl

theorem exec_aesef (a b c : Block) (s : State) : exec (.aesef a b c) s = .next (s.answer (resAesef s.rom a b)) := rfl

theorem exec_aesz (a b c : Block) (s : State) : exec (.aesz a b c) s = .next (s.answer (a ^^^ b)) := rfl

/-! ## AESDM and AESDF (R180, R181) -/

theorem resAesdf_zero : resAesdf Rom.reset 0 0 = 0x52525252525252525252525252525252 := by decide

/-- FIPS-197, Appendix B, the last step of the inverse cipher. -/
theorem resAesdf_fips197 :
    resAesdf Rom.reset (fips 0xd4bf5d30e0b452aeb84111f11e2798e5) (fips 0x2b7e151628aed2a6abf7158809cf4f3c) =
      fips 0x3243f6a8885a308d313198a2e0370734 := by decide +kernel

/-- The mix of AESDM acts on the result of AESDF. -/
theorem resAesdm_eq_invmixcolumns_resAesdf (r : Rom) (a b : Block) :
    resAesdm r a b = invmixcolumns (resAesdf r a b) := rfl

theorem byte_resAesdf (r : Rom) (a b : Block) {i k : Nat} (hi : i < 4) (hk : k < 4) :
    byte (resAesdf r a b) (4 * i + k) =
      invsbox8 r (byte a (4 * ((i + 4 - k) % 4) + k)) ^^^ byte b (4 * i + k) := by
  rw [resAesdf, byte_xor, byte_invsubbytes_invshiftrows r a hi hk]

theorem resAesdm_zero : resAesdm Rom.reset 0 0 = 0x52525252525252525252525252525252 := by decide

/-- FIPS-197, Appendix B, a middle round of the inverse cipher. -/
theorem resAesdm_fips197 :
    resAesdm Rom.reset (fips 0xe9317db5cb322c723d2e895faf090794) (fips 0xac7766f319fadc2128d12941575c006e) =
      fips 0x876e46a6f24ce78c4d904ad897ecc395 := by decide +kernel

/-- Settles O48: each column is inverse MixColumns of the bytes t, which are those of AESDF's result; the corner case
and the example are evaluated. -/
theorem aesdmResult : Obligations.AesdmResult := by
  refine ⟨fun a b c s => ⟨_, exec_aesdm a b c s, rfl, fun i => ?_⟩, fun c s hs => ⟨?_, ?_⟩⟩
  · have hcol := bytes_invmixcolumns fun k hk => byte_resAesdf s.rom a b i.isLt hk
    rw [resAesdm_eq_invmixcolumns_resAesdf]
    exact hcol
  · rw [exec_aesdm, hs, resAesdm_zero]
  · rw [exec_aesdm, hs, resAesdm_fips197]

/-- Settles O49: byte by byte; XOR with the key 0 is neutral; the corner case and the example are evaluated. -/
theorem aesdfResult : Obligations.AesdfResult := by
  refine ⟨fun a b c s => ⟨_, exec_aesdf a b c s, rfl, ?_, fun i k => byte_resAesdf s.rom a b i.isLt k.isLt⟩,
    fun c s hs => ⟨?_, ?_⟩⟩
  · rintro rfl
    exact BitVec.xor_zero
  · rw [exec_aesdf, hs, resAesdf_zero]
  · rw [exec_aesdf, hs, resAesdf_fips197]

/-! ## AESEM and AESEF (R182, R183) -/

theorem resAesem_zero : resAesem Rom.reset 0 0 = 0x63636363636363636363636363636363 := by decide

theorem resAesem_counting :
    resAesem Rom.reset (fips 0x000102030405060708090a0b0c0d0e0f) 0 =
      fips 0x6a6a5c452c6d3351b0d95d61279c215c := by decide +kernel

/-- FIPS-197, Appendix B, round 1. -/
theorem resAesem_fips197 :
    resAesem Rom.reset (fips 0x193de3bea0f4e22b9ac68d2ae9f84808) (fips 0xa0fafe1788542cb123a339392a6c7605) =
      fips 0xa49c7ff2689f352b6b5bea43026a5049 := by decide +kernel

/-- Settles O50: each column is MixColumns of the substituted bytes t, XORed with the key in place; the corner cases and
the example are evaluated. -/
theorem aesemResult : Obligations.AesemResult := by
  refine ⟨fun a b c s => ⟨_, exec_aesem a b c s, rfl, fun i => ?_⟩, fun c s hs => ⟨?_, ?_, ?_⟩⟩
  · obtain ⟨h0, h1, h2, h3⟩ := bytes_mixcolumns fun k hk => byte_shiftrows_subbytes s.rom a i.isLt hk
    simp only [resAesem, byte_xor, h0, h1, h2, h3, and_self]
  · rw [exec_aesem, hs, resAesem_zero]
  · rw [exec_aesem, hs, resAesem_counting]
  · rw [exec_aesem, hs, resAesem_fips197]

theorem byte_resAesef (r : Rom) (a b : Block) {i k : Nat} (hi : i < 4) (hk : k < 4) :
    byte (resAesef r a b) (4 * i + k) = sbox8 r (byte a (4 * ((i + k) % 4) + k)) ^^^ byte b (4 * i + k) := by
  rw [resAesef, byte_xor, byte_shiftrows_subbytes r a hi hk]

theorem resAesef_zero : resAesef Rom.reset 0 0 = 0x63636363636363636363636363636363 := by decide

theorem resAesef_counting :
    resAesef Rom.reset (fips 0x000102030405060708090a0b0c0d0e0f) 0 =
      fips 0x636b6776f201ab7b30d777c5fe7c6f2b := by decide +kernel

/-- FIPS-197, Appendix B, round 10. -/
theorem resAesef_fips197 :
    resAesef Rom.reset (fips 0xeb40f21e592e38848ba113e71bc342d2) (fips 0xd014f9a8c9ee2589e13f0cc8b6630ca6) =
      fips 0x3925841d02dc09fbdc118597196a0b32 := by decide +kernel

/-- Settles O51: byte by byte; the corner cases and the example are evaluated. -/
theorem aesefResult : Obligations.AesefResult := by
  refine ⟨fun a b c s => ⟨_, exec_aesef a b c s, rfl, fun i k => byte_resAesef s.rom a b i.isLt k.isLt⟩,
    fun c s hs => ⟨?_, ?_, ?_⟩⟩
  · rw [exec_aesef, hs, resAesef_zero]
  · rw [exec_aesef, hs, resAesef_counting]
  · rw [exec_aesef, hs, resAesef_fips197]

/-! ## AESZ (R184) -/

/-- Settles O52: the result is XOR, which acts on each bit, gives 0 for equal operands and is neutral with 0. -/
theorem aeszResult : Obligations.AeszResult := by
  refine fun a b c s => ⟨_, exec_aesz a b c s, fun i _ => BitVec.getLsbD_xor, ?_, ?_, ?_⟩
  · rintro rfl
    exact BitVec.xor_self
  · rintro rfl
    exact BitVec.xor_zero
  · rintro rfl rfl
    exact BitVec.zero_xor

end Sys2Proof.Proofs
end

section
/-! Which codes are unsupported, and what their operations answer (46_dispatch.md R201 to R209). -/

namespace Sys2Proof.Proofs

open Sys2Proof.Machine Sys2Proof.Laws

/-! ## `unsup` as a function of op (R201, R202) -/

theorem unsupFlag_eq_true_iff (op : BitVec 4) : unsupFlag op = true ↔ 9 ≤ op.toNat ∧ op.toNat ≤ 15 := by
  have hop : op.toNat < 2 ^ 4 := op.isLt
  rw [unsupFlag, decide_eq_true_iff]
  omega

/-- Code by code, `Execute` reads `unsup` off op alone. -/
theorem execute_unsup (r : Rom) (op : BitVec 4) (a b c : Block) : (execute r op a b c).unsup = unsupFlag op := by
  obtain ⟨n, hn⟩ := op
  interval_cases n <;> rfl

theorem supported_eq_false_iff (op : BitVec 4) : supported op = false ↔ unsupFlag op = true := by
  rw [supported, Bool.not_eq_false']

theorem resolveApply_of_supported {op : BitVec 4} (h : supported op = true) (r : Rom) (a b c : Block) :
    resolveApply r op a b c = some (execute r op a b c).res := by
  have hflag : unsupFlag op = false := by simpa [supported] using h
  simp [resolveApply, execute_unsup, hflag]

theorem resolveApply_of_not_supported {op : BitVec 4} (h : supported op = false) (r : Rom) (a b c : Block) :
    resolveApply r op a b c = none := by
  simp [resolveApply, execute_unsup, (supported_eq_false_iff op).mp h]

theorem resolveApply_eq_none_iff (r : Rom) (op : BitVec 4) (a b c : Block) :
    resolveApply r op a b c = none ↔ supported op = false := by
  cases h : supported op with
  | true => simp [resolveApply_of_supported h]
  | false => simp [resolveApply_of_not_supported h]

/-- Settles O12: `unsup` is `unsupFlag` of op, which mentions neither operands nor ROMs. -/
theorem unsupIsAFunctionOfOp : Obligations.UnsupIsAFunctionOfOp := by
  intro r r' op a b c a' b' c'
  refine ⟨?_, ?_, (execute_unsup r op a b c).symm, (resolveApply_eq_none_iff r op a b c).symm,
    fun h => resolveApply_of_supported h r a b c⟩
  · rw [execute_unsup]
    exact unsupFlag_eq_true_iff op
  · rw [execute_unsup, execute_unsup]

/-! ## The seven unsupported operations (R203 to R209, R221) -/

/-- Each of the seven raises the exception, whatever its operands and the state. -/
theorem exec_of_unsupported {a b c : Block} {i : Instr} (hi : i ∈ [Instr.sm4k a b c, .sm4r a b c, .sm3me a b c,
    .sm3c a b c, .sha2ms a b c, .sha2ch a b c, .sha2cl a b c]) (s : State) : exec i s = .next s.raiseUnsupported := by
  simp only [List.mem_cons, List.not_mem_nil, or_false] at hi
  obtain rfl | rfl | rfl | rfl | rfl | rfl | rfl := hi <;> rfl

/-- LATENCY = 0: a reply is at once on the outputs (R26). -/
theorem outputs_respond_of_no_stages {s : State} (h : s.stages = []) (r : Reply) : (s.respond r).outputs = r := by
  simp [respond_of_no_stages h, State.outputs, h]

/-- LATENCY = 0: there is no valid bit to wait for, so a reply is recorded at once (R222). -/
theorem response_respond_of_no_stages {s : State} (h : s.stages = []) (r : Reply) :
    (s.respond r).response = some r.response := by
  have hvalid : (s.respond r).outValid = none := by simp [respond_of_no_stages h, State.outValid, h]
  simp [State.response, hvalid, outputs_respond_of_no_stages h]

/-- LATENCY ≥ 1: a reply changes the stages and nothing else. -/
theorem respond_eq_with_stages {s : State} (h : s.stages ≠ []) (r : Reply) :
    s.respond r = { s with stages := (s.respond r).stages } := by
  rw [respond_of_stages h]
  rfl

/-- Settles O57: each operation raises the exception, and what a reply does is read off at both kinds of LATENCY. -/
theorem unsupportedOperations : Obligations.UnsupportedOperations := by
  intro a b c s i hi
  refine ⟨_, exec_of_unsupported hi s, rfl, fun hL => ?_, fun hL => ?_⟩
  · have hs : s.stages = [] := stages_eq_nil_iff.mpr hL
    have hout : s.raiseUnsupported.outputs = ⟨true, 0⟩ := outputs_respond_of_no_stages hs _
    exact ⟨respond_of_no_stages hs _, congrArg Reply.unsup hout, congrArg Reply.res hout,
      response_respond_of_no_stages hs _⟩
  · have hs : s.stages ≠ [] := List.length_pos_iff.mp hL
    refine ⟨respond_eq_with_stages hs _, fun hw => ?_⟩
    rw [State.raiseUnsupported, respond_of_stages hs]
    exact shiftIn_stages_zero hw hL _

end Sys2Proof.Proofs
end

section
/-! Requests: packing, the decoder and the encoder, and script lines (30_encoding.md R60 to R67). The dispatch by code is
looked through once, in `fields_decodeOp`. -/

namespace Sys2Proof.Proofs

open Sys2Proof.Machine Sys2Proof.Laws

/-! ## The decoder and the encoder (R60, R61) -/

/-- Decoding keeps all four fields of a request, code by code. -/
theorem fields_decodeOp (op : BitVec 4) (a b c : Block) :
    (decodeOp op a b c).code = op ∧ (decodeOp op a b c).opA = a ∧ (decodeOp op a b c).opB = b ∧
      (decodeOp op a b c).opC = c := by
  obtain ⟨n, hn⟩ := op
  interval_cases n <;> exact ⟨rfl, rfl, rfl, rfl⟩

/-- An operation is what its code and operands select. -/
theorem decodeOp_fields (i : Instr) : decodeOp i.code i.opA i.opB i.opC = i := by cases i <;> rfl

theorem decode_packRequest (op : BitVec 4) (a b c : Block) : decode (packRequest op a b c) = decodeOp op a b c := by
  rw [decode, reqOp_pack, reqA_pack, reqB_pack, reqC_pack]

theorem decode_encode (i : Instr) : decode (encode i) = i := by rw [encode, decode_packRequest, decodeOp_fields]

/-- The fields of a request's number are those of the request: a field is cut out of the number already. -/
theorem presentingNumber_toNat (r : Request) : Pins.presentingNumber r.toNat = Pins.presenting r := rfl

theorem shiftRight_eq_zero_iff_lt (w n : Nat) : w >>> n = 0 ↔ w < 2 ^ n := by
  rw [Nat.shiftRight_eq_div_pow, Nat.div_eq_zero_iff_lt (Nat.two_pow_pos n)]

theorem toNat_shiftRight_width {n : Nat} (v : BitVec n) : v.toNat >>> n = 0 :=
  Nat.shiftRight_eq_zero _ _ v.isLt

theorem decodeNumber_of_shiftRight_eq_zero {w : Nat} (h : w >>> 388 = 0) :
    decodeNumber w = .ok (decodeOp (BitVec.ofNat 4 w) (BitVec.ofNat 128 (w >>> 4)) (BitVec.ofNat 128 (w >>> 132))
      (BitVec.ofNat 128 (w >>> 260))) :=
  if_pos h

theorem decodeNumber_of_le {w : Nat} (h : 2 ^ 388 ≤ w) : decodeNumber w = .error .longerThanOneRequest := by
  rw [← Nat.not_lt, ← shiftRight_eq_zero_iff_lt] at h
  exact if_neg h

theorem decodeNumber_toNat (r : Request) : decodeNumber r.toNat = .ok (decode r) :=
  decodeNumber_of_shiftRight_eq_zero (toNat_shiftRight_width r)

theorem decodeTableWord_toNat (r : Request) : decodeTableWord 388 r.toNat = some (decode r) := by
  rw [decodeTableWord, Nat.mod_eq_of_lt r.isLt, decodeNumber_toNat]

/-- Settles O1: the packed fields read back, and the number of a request decodes and drives as the request does. -/
theorem decodeOfEncode : Obligations.DecodeOfEncode := by
  refine fun i => ⟨decode_encode i, ?_, presentingNumber_toNat _, packRequest_fields (encode i)⟩
  rw [decodeTableWord_toNat, decode_encode]

/-- Settles O2: the decoded operation has the request's fields, and a request is what its fields are. -/
theorem encodeOfDecode : Obligations.EncodeOfDecode := by
  intro r
  obtain ⟨hop, ha, hb, hc⟩ := fields_decodeOp (reqOp r) (reqA r) (reqB r) (reqC r)
  rw [encode, decode, hop, ha, hb, hc, packRequest_fields]

/-- Settles O3: each field of the decoded operation is the slice of the request at the place of R60. -/
theorem decodeReadsTheFields : Obligations.DecodeReadsTheFields := by
  intro r
  obtain ⟨hop, ha, hb, hc⟩ := fields_decodeOp (reqOp r) (reqA r) (reqB r) (reqC r)
  refine ⟨fun i hi => ?_, fun i hi => ?_, fun i hi => ?_, fun i hi => ?_, fun r' h => ?_⟩
  · rw [decode, hop, reqOp, BitVec.getLsbD_extractLsb', decide_eq_true hi, Bool.true_and, Nat.zero_add]
  · rw [decode, ha, reqA, BitVec.getLsbD_extractLsb', decide_eq_true hi, Bool.true_and]
  · rw [decode, hb, reqB, BitVec.getLsbD_extractLsb', decide_eq_true hi, Bool.true_and]
  · rw [decode, hc, reqC, BitVec.getLsbD_extractLsb', decide_eq_true hi, Bool.true_and]
  · obtain ⟨hop', -⟩ := fields_decodeOp (reqOp r') (reqA r') (reqB r') (reqC r')
    rw [decode, decode, hop, hop', h]

/-- Settles O4: the ten words, each evaluated. -/
theorem writtenWordsDecode : Obligations.WrittenWordsDecode := by
  refine ⟨?_, ?_, ?_, ?_, ?_, ?_, ?_, ?_, ?_, ?_⟩ <;> decide +kernel

/-- Settles O5: a number of 2^388 or more is refused, and any other is accepted. -/
theorem overlongNumberRefused : Obligations.OverlongNumberRefused := by
  refine fun w => ⟨⟨decodeNumber_of_le, fun h => ?_⟩, ?_⟩
  · by_contra hlt
    rw [Nat.not_le, ← shiftRight_eq_zero_iff_lt] at hlt
    rw [decodeNumber_of_shiftRight_eq_zero hlt] at h
    cases h
  · rintro r rfl
    exact decodeNumber_toNat r

/-- Settles O6: the operation's meaning does not mention the ignored port. -/
theorem ignoredPortsHaveNoEffect : Obligations.IgnoredPortsHaveNoEffect := by
  intro a b c a' b' c' s
  exact ⟨rfl, rfl, rfl, rfl, rfl, rfl, rfl, rfl, rfl, rfl, rfl, rfl, rfl, rfl⟩

/-! ## Script lines (R67) -/

/-- A mnemonic stands in the table at the code it names: the table has 16 entries, so no place is cut to 4 bits. -/
theorem mnemonics_getElem?_code {m : String} {code : BitVec 4} (h : codeOfMnemonic m = some code) :
    mnemonics[code.toNat]? = some m := by
  obtain ⟨i, hfind, rfl⟩ := Option.map_eq_some_iff.mp h
  obtain ⟨hi, hm, -⟩ := List.findIdx?_eq_some_iff_getElem.mp hfind
  have hi' : i < 2 ^ 4 := hi
  rw [BitVec.toNat_ofNat, Nat.mod_eq_of_lt hi', List.getElem?_eq_getElem hi, eq_of_beq hm]

theorem okAB_of_ne_imm {o : Operand} (h : ∀ n, o ≠ .imm n) : o.okAB = true := by
  cases o with
  | name x => rfl
  | imm n => exact absurd rfl (h n)
  | blank => rfl

theorem okC_of_imm_le {o : Operand} (h : ∀ n, o = .imm n → n ≤ 15) : o.okC = true := by
  cases o with
  | name x => rfl
  | imm n => exact decide_eq_true (h n rfl)
  | blank => rfl

/-- Settles O8: the line passes each part of the check, and each operand's value is the one it drives. -/
theorem scriptLineEncoding : Obligations.ScriptLineEncoding := by
  unfold Obligations.ScriptLineEncoding
  intro drives vars dest m a b c code va vb vc hm ha hb hc hva hvb hvc
  have hval {o : Operand} {v : Block} (h : drives vars o v) : o.value vars = some v := by
    cases o with
    | name x => exact h
    | imm n =>
      obtain rfl : v.toNat = n := h
      rw [Operand.value, BitVec.ofNat_toNat, BitVec.setWidth_eq]
    | blank => exact congrArg some (Eq.symm h)
  have hwf : (Line.request dest m a b c).wellFormed = true := by
    simp [Line.wellFormed, hm, okAB_of_ne_imm ha, okAB_of_ne_imm hb, okC_of_imm_le hc]
  refine ⟨hwf, ?_, mnemonics_getElem?_code hm⟩
  simp [Line.encoded, hwf, hm, hval hva, hval hvb, hval hvc]

end Sys2Proof.Proofs
end

section
/-! What steps and operations do to the machine: the request that is run, the frame, and what any number of steps keeps
(10_state.md sections 2 to 5). -/

namespace Sys2Proof.Proofs

open Sys2Proof.Machine Sys2Proof.Safety Sys2Proof.Laws

/-! ## The operation a step runs (R200) -/

/-- Settles O11: the dispatch agrees with `Execute` on the fields the decoder reads. -/
theorem execAnswersExecute : Obligations.ExecAnswersExecute :=
  fun r => exec_decodeOp (reqOp r) (reqA r) (reqB r) (reqC r)

/-- With LATENCY = 0 whatever is driven, otherwise if the ports ask for it, a step computes the drive. -/
theorem event_request {s : State} {p : Pins} {ps : List Pins} (hi : s.inbox = p :: ps)
    (h : s.stages = [] ∨ presentsRequest p) : s.present.event = .request := by
  by_cases hs : s.stages = []
  · exact event_of_no_stages (by rw [present_stages, hs])
  · obtain ⟨hc, hr, hv⟩ := h.resolve_left hs
    simp [event_of_rising (List.length_pos_iff.mpr hs) hi hc, hr, hv]

/-- Settles O9: the ports hold the drive, and their decode is that of the packed request. -/
theorem stepRunsDecodedRequest : Obligations.StepRunsDecodedRequest := by
  intro s p ps hi h
  rw [step_of_event_request hi (event_request hi h), decode_packRequest, exec_decodeOp, present_cons hi]

/-- Settles O10: of the four events one is an operation, which answers, and the others have a next state. -/
theorem stepNeverStops : Obligations.StepNeverStops := by
  intro s
  obtain ⟨-, hstep⟩ | ⟨-, hstep⟩ | ⟨-, hstep⟩ | ⟨-, hstep⟩ := step_cases s
  · obtain ⟨r, hr⟩ := exec_responds s.present.fetched s.present
    exact ⟨_, hstep.trans hr⟩
  · exact ⟨_, hstep⟩
  · exact ⟨_, hstep⟩
  · exact ⟨_, hstep⟩

/-! ## Where a response goes (R26, R30, R220, R222) -/

theorem respond_stages_zero {s : State} (hL : 1 ≤ s.latency) (hw : s.wasReset = true) (r : Reply) :
    (s.respond r).stages[0]? = some ⟨true, r⟩ := by
  rw [respond_of_stages (List.length_pos_iff.mp hL)]
  exact shiftIn_stages_zero hw hL _

theorem outValid_of_no_stages {s : State} (h : s.stages = []) : s.outValid = none := by simp [State.outValid, h]

theorem outputs_of_no_stages {s : State} (h : s.stages = []) : s.outputs = s.out := by simp [State.outputs, h]

@[simp] theorem latency_respond (s : State) (r : Reply) : (s.respond r).latency = s.latency := length_respond s r

/-- Settles O18: by the kind of LATENCY, and the reading of a reply by its `unsup`. -/
theorem replyPlacedAndRead : Obligations.ReplyPlacedAndRead := by
  refine ⟨fun s r hL => ?_, fun s r hL hw => respond_stages_zero hL hw r, fun r => ⟨fun h => ?_, fun h => ?_⟩⟩
  · have hs : s.stages = [] := stages_eq_nil_iff.mpr hL
    have ht : (s.respond r).stages = [] := stages_eq_nil_iff.mpr ((latency_respond s r).trans hL)
    exact ⟨outputs_respond_of_no_stages hs r, outValid_of_no_stages ht, response_respond_of_no_stages hs r⟩
  · simp [Reply.response, Reply.causeCode, h]
  · simp [Reply.response, Reply.causeCode, h]

/-! ## Frames -/

/-- LATENCY ≥ 1: a response leaves the field of the combinational outputs, and once the wrapper was reset it is new in
stage 0 only. -/
theorem respond_frame_of_stages {s : State} (hL : 1 ≤ s.latency) (r : Reply) :
    (s.respond r).out = s.out ∧ (s.wasReset = true → ∀ k, k + 1 < s.latency →
      (s.respond r).stages[k + 1]? = s.stages[k]?) := by
  rw [respond_of_stages (List.length_pos_iff.mp hL)]
  exact ⟨rfl, fun hw k hk => shiftIn_stages_succ hw _ hk⟩

/-- Settles O19: every operation answers with a response, and a response has this frame. -/
theorem execFrame : Obligations.ExecFrame := by
  intro i s t h
  obtain ⟨r, hr⟩ := exec_responds i s
  cases hr.symm.trans h
  exact ⟨respond_rom s r, fun sp x => by rw [respond_rom], respond_pins s r, respond_inbox s r, respond_cycle s r,
    respond_wasReset s r, latency_respond s r, fun hL => respond_frame_of_stages hL r⟩

/-- A step leaves of the presented state the ports, the drives to come, the step counter and LATENCY, and what was reset
stays so. -/
theorem step_frame_present {s t : State} (h : step s = .next t) :
    t.pins = s.present.pins ∧ t.inbox = s.present.inbox ∧ t.cycle = s.present.cycle ∧
      t.latency = s.present.latency ∧ (s.present.wasReset = true → t.wasReset = true) := by
  obtain ⟨-, hstep⟩ | ⟨-, hstep⟩ | ⟨-, hstep⟩ | ⟨-, hstep⟩ := step_cases s
  · obtain ⟨-, -, hpins, hinbox, hcycle, hwas, hlat, -⟩ := execFrame _ _ _ (hstep.symm.trans h)
    exact ⟨hpins, hinbox, hcycle, hlat, fun hw => hwas.trans hw⟩
  · cases hstep.symm.trans h
    exact ⟨rfl, rfl, rfl, latency_resetEdge _, fun _ => rfl⟩
  · cases hstep.symm.trans h
    exact ⟨rfl, rfl, rfl, latency_shiftIn _ _, id⟩
  · cases hstep.symm.trans h
    exact ⟨rfl, rfl, rfl, length_clockStopped _, id⟩

/-- Settles O20: the drive was taken, and the counter advanced, when it was put on the ports. -/
theorem stepFrame : Obligations.StepFrame := by
  intro s t h
  obtain ⟨hpins, hinbox, hcycle, hlat, hwas⟩ := step_frame_present h
  rw [latency_present] at hlat
  rw [present_cycle] at hcycle
  rw [present_inbox] at hinbox
  rw [present_wasReset] at hwas
  exact ⟨hlat, hcycle, hinbox, hwas, fun p ps hi => hpins.trans (present_pins hi)⟩

/-! ## Any number of steps -/

/-- A property that every step keeps holds after a run. -/
theorem run_keeps {P : State → Prop} (hP : ∀ s t, P s → step s = .next t → P t) {k : Nat} {s t : State} (hs : P s)
    (h : Host.Core.run Sys2Proof.core k s = .next t) : P t := by
  induction k generalizing s with
  | zero =>
    cases h
    exact hs
  | succ k ih =>
    obtain ⟨s', hstep⟩ := stepNeverStops s
    exact ih (hP s s' hs hstep) ((run_succ_of_step hstep k).symm.trans h)

theorem run_keeps_rom {k : Nat} {s t : State} (h : Host.Core.run Sys2Proof.core k s = .next t) : t.rom = s.rom :=
  run_keeps (P := fun u => u.rom = s.rom) (fun _ _ hu hstep => (step_keeps_rom hstep).trans hu) rfl h

theorem run_keeps_latency {k : Nat} {s t : State} (h : Host.Core.run Sys2Proof.core k s = .next t) :
    t.latency = s.latency :=
  run_keeps (P := fun u => u.latency = s.latency) (fun _ _ hu hstep => (stepFrame _ _ hstep).1.trans hu) rfl h

theorem run_keeps_wasReset {k : Nat} {s t : State} (hw : s.wasReset = true)
    (h : Host.Core.run Sys2Proof.core k s = .next t) : t.wasReset = true := by
  refine run_keeps (P := fun u => u.wasReset = true) (fun u v hu hstep => ?_) hw h
  obtain ⟨-, -, -, hwas, -⟩ := stepFrame u v hstep
  exact hwas hu

section WithRequest

variable {s : State} (r : Request)

@[simp] theorem latency_withRequest : (s.withRequest r).latency = s.latency := rfl

/-- A request put in front of the drives is answered by the next step with `Execute` of it. -/
theorem step_withRequest : step (s.withRequest r) =
    .next ((s.withRequest r).present.respond (execute s.rom (reqOp r) (reqA r) (reqB r) (reqC r))) :=
  step_of_event_request (withRequest_inbox s r) (event_request (withRequest_inbox s r) (.inr ⟨rfl, rfl, rfl⟩))

theorem outputs_respond_withRequest (hL : s.latency = 0) (reply : Reply) :
    ((s.withRequest r).present.respond reply).outputs = reply :=
  outputs_respond_of_no_stages (by simpa [stages_eq_nil_iff] using hL) reply

theorem respond_withRequest_stages_zero (hL : 1 ≤ s.latency) (hw : s.wasReset = true) (reply : Reply) :
    ((s.withRequest r).present.respond reply).stages[0]? = some ⟨true, reply⟩ :=
  respond_stages_zero (by simpa using hL) (by simpa using hw) reply

end WithRequest

/-- Settles O17: the reply is `Execute` of the request with the ROMs, which no run changes, nor LATENCY, nor that the
wrapper was reset. -/
theorem equalRequestsEqualReplies : Obligations.EqualRequestsEqualReplies := by
  intro s t k r h
  have hlat : t.latency = s.latency := run_keeps_latency h
  have hstep := step_withRequest (s := t) r
  rw [run_keeps_rom h] at hstep
  refine ⟨_, _, step_withRequest r, hstep, fun hL => ?_, fun hL hw => ?_⟩
  · rw [outputs_respond_withRequest r hL, outputs_respond_withRequest r (hlat.trans hL)]
  · exact ⟨_, respond_withRequest_stages_zero r hL hw _,
      respond_withRequest_stages_zero r (hlat ▸ hL) (run_keeps_wasReset hw h) _⟩

end Sys2Proof.Proofs
end

section
/-! The invariant of the machine, its reset state, and what a reset edge and the edges after an accepted request do to
the wrapper (10_state.md sections 4 and 5, 70_reset_and_hazards.md). -/

namespace Sys2Proof.Proofs

open Sys2Proof.Machine Sys2Proof.Safety Sys2Proof.Laws

/-! ## Every step keeps the invariant -/

/-- The drives on the ports after the caller's move are the first of the inbox, or those of an idle caller. -/
theorem present_clk_rising {s : State} (h : ∀ p ∈ s.inbox, p.clk = .rising) : s.present.pins.clk = .rising := by
  cases hi : s.inbox with
  | nil =>
    rw [present_nil hi]
    rfl
  | cons p ps =>
    rw [present_pins hi]
    exact h p (hi ▸ List.mem_cons_self)

theorem event_ne_stopped {s : State} (h : s.pins.clk = .rising) : s.event ≠ .stopped := by
  by_cases hs : s.stages = []
  · rw [event_of_no_stages hs]
    decide
  · rw [event_of_stages hs, h]
    cases s.pins.rst <;> cases s.pins.inValid <;> decide

/-- With LATENCY = 0 every step leaves the outputs at `Execute` of the ports. -/
theorem step_combSettled {s t : State} (h : step s = .next t) : combSettled t := by
  intro ht
  obtain ⟨hpins, -, -, hlat, -⟩ := step_frame_present h
  have hs : s.present.stages = [] := stages_eq_nil_iff.mpr (hlat.symm.trans (stages_eq_nil_iff.mp ht))
  have hstep : step s = exec s.present.fetched s.present := by simp [step, event_of_no_stages hs]
  rw [State.fetched, exec_decodeOp] at hstep
  cases hstep.symm.trans h
  rw [outputs_respond_of_no_stages hs, respond_rom, respond_pins]

/-- No partial value travels with an unsupported response (R210): from code 9 on `Execute` answers res = 0. -/
theorem execute_res_of_unsup {r : Rom} {op : BitVec 4} {a b c : Block} (h : (execute r op a b c).unsup = true) :
    (execute r op a b c).res = 0 := by
  rw [execute_unsup, unsupFlag_eq_true_iff] at h
  obtain ⟨hle, hge⟩ := h
  obtain ⟨n, hn⟩ := op
  rw [BitVec.toNat_ofFin] at hle hge
  interval_cases n <;> rfl

/-- A stage that holds no partial value: a valid unsupported reply has res = 0. -/
def HoldsZero (st : Stage) : Prop := st.vld = true → st.dat.unsup = true → st.dat.res = 0

theorem holdsZero_of_not_vld {st : Stage} (h : st.vld = false) : HoldsZero st :=
  fun hv => absurd (h.symm.trans hv) Bool.false_ne_true

/-- An edge with rst = 0 keeps the clause on replies if the stage shifted in meets it. -/
theorem unsupportedHoldsZero_shiftIn {s : State} {new : Stage} (hs : unsupportedHoldsZero s) (hnew : HoldsZero new) :
    unsupportedHoldsZero (s.shiftIn new) := by
  intro hw st hst
  rw [shiftIn_wasReset] at hw
  rw [shiftIn_of_wasReset hw] at hst
  obtain rfl | hold := mem_shiftStages hst
  · exact hnew
  · exact hs hw st hold

theorem unsupportedHoldsZero_present {s : State} (hs : unsupportedHoldsZero s) : unsupportedHoldsZero s.present := by
  rw [unsupportedHoldsZero, present_wasReset, present_stages]
  exact hs

theorem unsupportedHoldsZero_respond {s : State} {r : Reply} (hs : unsupportedHoldsZero s)
    (hr : r.unsup = true → r.res = 0) : unsupportedHoldsZero (s.respond r) := by
  by_cases h : s.stages = []
  · rw [respond_of_no_stages h]
    exact hs
  · rw [respond_of_stages h]
    exact unsupportedHoldsZero_shiftIn hs fun _ => hr

/-- Where the clock is not stopped, a step keeps the clause on replies. -/
theorem step_unsupportedHoldsZero {s t : State} (hs : unsupportedHoldsZero s) (hc : ∀ p ∈ s.inbox, p.clk = .rising)
    (h : step s = .next t) : unsupportedHoldsZero t := by
  have hp := unsupportedHoldsZero_present hs
  obtain ⟨-, hstep⟩ | ⟨-, hstep⟩ | ⟨-, hstep⟩ | ⟨hstopped, -⟩ := step_cases s
  · rw [State.fetched, exec_decodeOp] at hstep
    cases hstep.symm.trans h
    exact unsupportedHoldsZero_respond hp execute_res_of_unsup
  · cases hstep.symm.trans h
    exact fun _ st hst => holdsZero_of_not_vld (vld_of_mem_resetEdge hst)
  · cases hstep.symm.trans h
    exact unsupportedHoldsZero_shiftIn hp (holdsZero_of_not_vld rfl)
  · exact absurd hstopped (event_ne_stopped (present_clk_rising hc))

/-- Settles O22, clause by clause: no step writes a ROM, and the drives still to come were to come before. -/
theorem stepKeepsInvariant : Obligations.StepKeepsInvariant := by
  rintro s t ⟨hrom, -, hzero, hclk⟩ h
  obtain ⟨-, -, hinbox, -, -⟩ := stepFrame s t h
  refine ⟨(step_keeps_rom h).symm ▸ hrom, step_combSettled h, step_unsupportedHoldsZero hzero hclk h, fun p hp => ?_⟩
  exact hclk p (List.mem_of_mem_tail (hinbox ▸ hp))

/-! ## Reset and power-up (R32, R241) -/

@[simp] theorem latency_resetAt (L : Nat) : (State.resetAt L).latency = L := by
  simp [State.latency, State.resetAt]

@[simp] theorem latency_powerUp (L : Nat) : (State.powerUp L).latency = L := by
  simp [State.latency, State.powerUp]

theorem vld_of_mem_resetAt {L : Nat} {st : Stage} (h : st ∈ (State.resetAt L).stages) : st.vld = false := by
  obtain ⟨i, -, rfl⟩ := List.mem_map.mp h
  rfl

/-- `Execute` of the ports at reset is AESDM of zeros (log 4). -/
theorem execute_zero : execute Rom.reset 0 0 0 0 = ⟨false, 0x52525252525252525252525252525252⟩ :=
  congrArg (Reply.mk false) resAesdm_zero

theorem combSettled_of_zero {s : State} (hrom : s.rom = Rom.reset) (hpins : s.pins = Pins.zero)
    (hout : s.out = ⟨false, 0x52525252525252525252525252525252⟩) : combSettled s := by
  intro h
  rw [outputs_of_no_stages h, hout, hrom, hpins]
  exact execute_zero.symm

theorem inv_resetAt (L : Nat) : inv (State.resetAt L) :=
  ⟨wf_reset_rom, combSettled_of_zero rfl rfl rfl, fun _ _ hst => holdsZero_of_not_vld (vld_of_mem_resetAt hst), nofun⟩

/-- Settles O23: the stages at reset are not valid, and at power-up no reset was sampled. -/
theorem resetMeetsInvariant : Obligations.ResetMeetsInvariant :=
  ⟨inv_resetAt _, fun L => ⟨inv_resetAt L, wf_reset_rom, combSettled_of_zero rfl rfl rfl, nofun, nofun⟩⟩

/-- out_valid is the valid bit of the last stage (R31), so it is 0 where no stage is valid. -/
theorem outValid_eq_false {s : State} (hL : 1 ≤ s.latency) (h : ∀ st ∈ s.stages, st.vld = false) :
    s.outValid = some false := by
  obtain ⟨st, hst, hlast⟩ := exists_last_stage hL
  rw [outValid_of_getLast? hlast, h st (List.mem_of_getElem? hst)]

/-- Settles O24: the reset state field by field; its ROMs' lists name no entry, so each reads as the table's. -/
theorem resetValues : Obligations.ResetValues := by
  refine ⟨rfl, fun L => ⟨latency_resetAt L, fun x => ⟨rfl, rfl⟩, fun st => vld_of_mem_resetAt, fun hL => ?_, ?_⟩⟩
  · exact outValid_eq_false (by simpa using hL) fun st => vld_of_mem_resetAt
  · rintro rfl
    obtain ⟨-, hcomb, -⟩ := inv_resetAt 0
    exact hcomb rfl

/-! ## The first reset edge (R240, R243) -/

/-- Before the first reset edge a step without one leaves every register of the wrapper any value, whether the clock was
stopped or an edge shifted. -/
theorem step_before_reset {s : State} {p : Pins} {ps : List Pins} (hL : 1 ≤ s.latency) (hw : s.wasReset = false)
    (hi : s.inbox = p :: ps) (hp : p.clk = .stopped ∨ p.rst = false) :
    step s = .next { s.present with stages := s.present.anyStages } := by
  cases hc : p.clk with
  | stopped =>
    have he : s.present.event = .stopped := by rw [event_of_stages (present_stages_ne_nil hL), present_pins hi, hc]
    simp only [step, he, State.clockStopped]
  | rising =>
    obtain ⟨new, hstep, -, -⟩ := step_of_not_rst hL hi hc (hp.resolve_left (by simp [hc]))
    rw [hstep, shiftIn_of_not_wasReset ((present_wasReset s).trans hw)]

/-- A reset edge, from any state, leaves no response. -/
theorem step_reset_edge {s : State} {p : Pins} {ps : List Pins} (hL : 1 ≤ s.latency) (hi : s.inbox = p :: ps)
    (hc : p.clk = .rising) (hr : p.rst = true) :
    ∃ t, step s = .next t ∧ t.outValid = some false ∧ t.response = none ∧ (∀ st ∈ t.stages, st.vld = false) ∧
      t.wasReset = true ∧ t.rom = s.rom := by
  have hvalid : s.present.resetEdge.outValid = some false :=
    outValid_eq_false (by simpa using hL) fun st => vld_of_mem_resetEdge
  exact ⟨_, step_of_rst hL hi hc hr, hvalid, by simp [State.response, hvalid], fun st => vld_of_mem_resetEdge, rfl,
    present_rom s⟩

/-- Settles O25: power-up, a step before the first reset edge, and that edge from any state and from power-up. -/
theorem oneResetEdgeIsEnough : Obligations.OneResetEdgeIsEnough := by
  refine ⟨fun L => ⟨rfl, latency_powerUp L⟩, fun s p ps hL hw hi hp => ?_, fun s p ps => step_reset_edge,
    fun L p hL hc hr => ?_⟩
  · refine ⟨_, step_before_reset hL hw hi hp, (present_wasReset s).trans hw, fun i h => ?_⟩
    exact getElem?_anyStages s.present i (h.trans_eq (latency_present s).symm)
  · obtain ⟨t, hstep, hvalid, -, -, -, hrom⟩ :=
      step_reset_edge (s := { State.powerUp L with inbox := [p] }) (hL.trans_eq (latency_powerUp L).symm) rfl hc hr
    exact ⟨t, hstep, hvalid, fun sp x => by rw [hrom, ← memRead_reset]; rfl⟩

/-! ## A request in flight (R30, R31) -/

/-- Over n edges with rst = 0 what is in stage k moves on to stage k+n. -/
theorem run_moves_stage (ds rest : List Pins) (k : Nat) (st : Stage) (s : State) (hk : k + ds.length < s.latency)
    (hw : s.wasReset = true) (hi : s.inbox = ds ++ rest) (hd : ∀ d ∈ ds, d.clk = .rising ∧ d.rst = false)
    (hst : s.stages[k]? = some st) :
    ∃ t : State, Host.Core.run Sys2Proof.core ds.length s = .next t ∧ t.stages[k + ds.length]? = some st := by
  induction ds generalizing k s with
  | nil => exact ⟨s, rfl, hst⟩
  | cons d ds ih =>
    rw [List.forall_mem_cons] at hd
    rw [List.length_cons] at hk
    obtain ⟨⟨hc, hr⟩, hds⟩ := hd
    obtain ⟨new, hstep, -, -⟩ := step_of_not_rst (by omega) hi hc hr
    have hw' : s.present.wasReset = true := (present_wasReset s).trans hw
    have hst' : (s.present.shiftIn new).stages[k + 1]? = some st := by
      rw [shiftIn_stages_succ hw' new (by rw [latency_present]; omega), present_stages, hst]
    obtain ⟨t, hrun, ht⟩ := ih (k + 1) (s.present.shiftIn new) (by rw [latency_shiftIn, latency_present]; omega) hw'
      (by rw [shiftIn_inbox, present_inbox, hi]; rfl) hds hst'
    refine ⟨t, (run_succ_of_step hstep _).trans hrun, ?_⟩
    rw [List.length_cons, ← ht]
    congr 1
    omega

/-- Settles O16: the accepting edge puts Execute of the operands into stage 0, and L-1 edges move it to stage L-1. -/
theorem wrapperDelivers : Obligations.WrapperDelivers := by
  intro s p ps rest hlen hw hi hp hps
  have hL : 1 ≤ s.latency := by omega
  have hstep := step_of_presentsRequest hL hi hp
  have hw' : s.present.wasReset = true := (present_wasReset s).trans hw
  obtain ⟨t, hrun, hst⟩ := run_moves_stage ps rest 0 ⟨true, execute s.rom p.op p.a p.b p.c⟩ (s.present.shiftIn _)
    (by rw [latency_shiftIn, latency_present]; omega) hw' (by rw [shiftIn_inbox, present_inbox, hi]; rfl) hps
    (shiftIn_stages_zero hw' (by simpa using hL) _)
  have hrun' : Host.Core.run Sys2Proof.core s.latency s = .next t := by rw [← hlen, run_succ_of_step hstep, hrun]
  have hlat : t.latency = s.latency := run_keeps_latency hrun'
  obtain ⟨last, hlast, hget⟩ := exists_last_stage (s := t) (by omega)
  obtain rfl : (⟨true, execute s.rom p.op p.a p.b p.c⟩ : Stage) = last := by
    rw [← Option.some_inj, ← hst, ← hlast]
    congr 1
    omega
  have hvalid := outValid_of_getLast? hget
  have hout := outputs_of_getLast? hget rfl
  exact ⟨t, hrun', hvalid, hout, by simp [State.response, hvalid, hout]⟩

end Sys2Proof.Proofs
end

section
/-! The units' own laws: views of a value, substitution, the transforms the other way round, the key-schedule units and
the round keys (20_memory.md section 2, 41_sbox.md to 43_key_schedule.md). -/

namespace Sys2Proof.Proofs

open Sys2Proof.Machine Sys2Proof.Laws

/-! ## Narrower views (R44) -/

/-- Byte i of half h is byte 8h+i of the value. -/
theorem byte_half (v : Block) (h : Nat) {i : Nat} (hi : i < 8) : byte (half v h) i = byte v (8 * h + i) := by
  refine BitVec.eq_of_getLsbD_eq fun j hj => ?_
  have hlt : 8 * i + j < 64 := by omega
  rw [getLsbD_byte _ _ hj, getLsbD_byte _ _ hj, half, BitVec.getLsbD_extractLsb', decide_eq_true hlt, Bool.true_and]
  congr 1
  omega

/-- A concatenation as a number: the low part does not carry into the high part. -/
theorem toNat_append_eq_add {m n : Nat} (v : BitVec m) (w : BitVec n) :
    (v ++ w).toNat = w.toNat + 2 ^ n * v.toNat := by
  rw [BitVec.toNat_append, ← Nat.shiftLeft_add_eq_or_of_lt w.isLt, Nat.shiftLeft_eq, Nat.mul_comm, Nat.add_comm]

/-- Settles O27: words, halves, and the value of four words joined. -/
theorem narrowerViews : Obligations.NarrowerViews := by
  refine ⟨fun v j i => byte_col v j i i.isLt, fun v h i => byte_half v h i.isLt, fun w0 w1 w2 w3 => ?_⟩
  rw [ofWords, toNat_append_eq_add, toNat_append_eq_add, toNat_append_eq_add]
  ring

/-! ## Substitution (R104, R105, R107, R122) -/

/-- A value of m bytes is what its bytes are. -/
theorem eq_of_forall_byte {m : Nat} {v w : BitVec (8 * m)} (h : ∀ k < m, byte v k = byte w k) : v = w := by
  refine BitVec.eq_of_getLsbD_eq fun i hi => ?_
  have hr : i % 8 < 8 := Nat.mod_lt i (by decide)
  rw [← Nat.div_add_mod i 8, ← getLsbD_byte v _ hr, ← getLsbD_byte w _ hr, h (i / 8) (by omega)]

/-- Each half of a block built byte by byte is a double word built of the same bytes. -/
theorem half_ofBytes (f : Nat → Byte) (h : Fin 2) : half (ofBytes f) h = dwordOfBytes fun i => f (8 * h + i) := by
  refine eq_of_forall_byte (m := 8) fun i hi => ?_
  have hdword := byte_dwordOfBytes (fun i => f (8 * h + i)) ⟨i, hi⟩
  rw [byte_half _ _ hi, byte_ofBytes f _ (by omega)]
  exact hdword.symm

/-- A map of bytes applied in the places of a half. -/
theorem dwordOfBytes_map_half (f : Byte → Byte) (v : Block) (h : Nat) :
    (dwordOfBytes fun i => f (byte v (8 * h + i))) = dwordOfBytes fun i => f (byte (half v h) i) := by
  simp [dwordOfBytes, byte_half]

theorem half_subbytes (r : Rom) (v : Block) (h : Fin 2) : half (subbytes r v) h = sbox64 r (half v h) :=
  (half_ofBytes _ h).trans (dwordOfBytes_map_half (sbox8 r) v h)

theorem half_invsubbytes (r : Rom) (v : Block) (h : Fin 2) : half (invsubbytes r v) h = invsbox64 r (half v h) :=
  (half_ofBytes _ h).trans (dwordOfBytes_map_half (invsbox8 r) v h)

theorem invsubword_subword (w : Word) : invsubword Rom.reset (subword Rom.reset w) = w := by
  refine eq_of_forall_byte (m := 4) fun j hj => ?_
  have hinv := byte_invsubword Rom.reset (subword Rom.reset w) ⟨j, hj⟩
  rw [byte_subword, invsbox8_leftInverse] at hinv
  exact hinv

theorem invsbox64_sbox64 (d : DWord) : invsbox64 Rom.reset (sbox64 Rom.reset d) = d := by
  refine eq_of_forall_byte (m := 8) fun i hi => ?_
  have hinv := byte_invsbox64 Rom.reset (sbox64 Rom.reset d) ⟨i, hi⟩
  rw [byte_sbox64, invsbox8_leftInverse] at hinv
  exact hinv

/-- Settles O33: SubBytes is built byte by byte as the substitution of a half is, and the tables undo each other in every
place. -/
theorem substitutionLaws : Obligations.SubstitutionLaws :=
  ⟨fun r v h => ⟨half_subbytes r v h, half_invsubbytes r v h⟩, invsubword_subword, invsbox64_sbox64⟩

/-! ## ShiftRows and SubBytes (R120 to R122, R126) -/

/-- Settles O35: the formulas of R120 and R121 at each of the 16 places. -/
theorem shiftRowsSourceTables : Obligations.ShiftRowsSourceTables := by
  intro v k
  rw [byte_shiftrows v k.isLt, byte_invshiftrows v k.isLt]
  fin_cases k <;> exact ⟨rfl, rfl⟩

/-- ShiftRows takes byte k from where its inverse moved it to. -/
theorem shiftrows_invshiftrows (x : Block) : shiftrows (invshiftrows x) = x := by
  refine eq_of_bytes fun k hk => ?_
  rw [byte_shiftrows _ hk, byte_invshiftrows x (by omega)]
  congr 1
  omega

theorem subbytes_invsubbytes (x : Block) : subbytes Rom.reset (invsubbytes Rom.reset x) = x := by
  refine eq_of_bytes fun k hk => ?_
  rw [byte_subbytes _ _ hk, byte_invsubbytes _ _ hk, invsbox8_rightInverse]

/-- One moves bytes, the other changes each in its place. -/
theorem shiftrows_subbytes (r : Rom) (x : Block) : shiftrows (subbytes r x) = subbytes r (shiftrows x) := by
  refine eq_of_bytes fun k hk => ?_
  rw [byte_shiftrows _ hk, byte_subbytes r x (by omega), byte_subbytes r _ hk, byte_shiftrows x hk]

/-! ## MixColumns (R124 to R126, R180) -/

theorem colMul_invMixPoly_mixPoly : colMul invMixPoly mixPoly = wordOfBytes 1 0 0 0 := by decide

theorem mixColumn_invMixColumn (w : Word) : mixColumn (invMixColumn w) = w := by
  rw [mixColumn_eq_colMul, invMixColumn_eq_colMul, colMul_assoc, colMul_invMixPoly_mixPoly, colMul_one]

theorem mixcolumns_invmixcolumns (x : Block) : mixcolumns (invmixcolumns x) = x :=
  eq_of_cols fun i => by rw [col_mixcolumns, col_invmixcolumns, mixColumn_invMixColumn]

/-- Settles O41: each transform by its own reason, byte by byte or column by column. -/
theorem transformsTheOtherWayRound : Obligations.TransformsTheOtherWayRound :=
  ⟨fun x => ⟨shiftrows_invshiftrows x, subbytes_invsubbytes x, mixcolumns_invmixcolumns x⟩, shiftrows_subbytes⟩

theorem wordOfBytes_xor (a0 a1 a2 a3 b0 b1 b2 b3 : Byte) :
    wordOfBytes (a0 ^^^ b0) (a1 ^^^ b1) (a2 ^^^ b2) (a3 ^^^ b3) =
      wordOfBytes a0 a1 a2 a3 ^^^ wordOfBytes b0 b1 b2 b3 := by
  rw [wordOfBytes, ← BitVec.xor_append, ← BitVec.xor_append, ← BitVec.xor_append]
  rfl

theorem rowMul_xor (v w : Word) (c0 c1 c2 c3 : Byte) :
    rowMul (v ^^^ w) c0 c1 c2 c3 = rowMul v c0 c1 c2 c3 ^^^ rowMul w c0 c1 c2 c3 := by
  simp only [rowMul, byte_xor, gf8mul_xor_left]
  ac_rfl

/-- The product of polynomials is linear in its first factor. -/
theorem colMul_xor_left (v w c : Word) : colMul (v ^^^ w) c = colMul v c ^^^ colMul w c := by
  simp only [colMul, rowMul_xor, wordOfBytes_xor]

theorem invmixcolumns_xor (x y : Block) : invmixcolumns (x ^^^ y) = invmixcolumns x ^^^ invmixcolumns y := by
  have hcol (v w : Block) (i : Fin 4) : col (v ^^^ w) i = col v i ^^^ col w i := BitVec.extractLsb'_xor
  refine eq_of_cols fun i => ?_
  rw [hcol, col_invmixcolumns, col_invmixcolumns, col_invmixcolumns, hcol]
  simp only [invMixColumn_eq_colMul, colMul_xor_left]

/-- Settles O42: inverse MixColumns is linear, and AESDM applies it to a sum. -/
theorem invMixColumnsIsLinear : Obligations.InvMixColumnsIsLinear :=
  ⟨invmixcolumns_xor, fun _ _ _ => invmixcolumns_xor _ _⟩

/-! ## The inverse matrix is the only one (R125)

A matrix whose later rows are rotated right multiplies by a polynomial, so it undoes MixColumns only if it multiplies by
the inverse polynomial. One whose later rows are rotated left sends X to what it sends 1 to, rotated, the wrong way. -/

theorem colMul_one_left (c : Word) : colMul (wordOfBytes 1 0 0 0) c = c := by
  have hzero (x : Byte) : gf8mul 0 x = 0#8 := gf8mul_zero_left x
  simp only [colMul, rowMul, byte_wordOfBytes, gf8mul_one_left, hzero, BitVec.xor_zero, wordOfBytes_bytes]

/-- The polynomial `mixPoly` has one inverse, `invMixPoly`. -/
theorem eq_invMixPoly_of_colMul {c : Word} (h : colMul mixPoly c = wordOfBytes 1 0 0 0) : c = invMixPoly :=
  calc c = colMul (wordOfBytes 1 0 0 0) c := (colMul_one_left c).symm
    _ = colMul invMixPoly (colMul mixPoly c) := by rw [← colMul_invMixPoly_mixPoly, colMul_assoc]
    _ = invMixPoly := by rw [h, colMul_one]

theorem wordOfBytes_inj {a0 a1 a2 a3 b0 b1 b2 b3 : Byte} (h : wordOfBytes a0 a1 a2 a3 = wordOfBytes b0 b1 b2 b3) :
    a0 = b0 ∧ a1 = b1 ∧ a2 = b2 ∧ a3 = b3 := by
  obtain ⟨ha0, ha1, ha2, ha3⟩ := byte_wordOfBytes a0 a1 a2 a3
  obtain ⟨hb0, hb1, hb2, hb3⟩ := byte_wordOfBytes b0 b1 b2 b3
  rw [h] at ha0 ha1 ha2 ha3
  exact ⟨ha0.symm.trans hb0, ha1.symm.trans hb1, ha2.symm.trans hb2, ha3.symm.trans hb3⟩

/-- The matrix with first row m0 m1 m2 m3 and the later rows rotated right undoes MixColumns exactly with the first row
of R125. -/
theorem rightRotated_undoes_iff (m0 m1 m2 m3 : Byte) :
    (∀ w : Word, colMul (mixColumn w) (wordOfBytes m0 m3 m2 m1) = w) ↔ [m0, m1, m2, m3] = [14, 11, 13, 9] := by
  constructor
  · intro h
    have hone : mixColumn (wordOfBytes 1 0 0 0) = mixPoly := by decide
    have hinv := eq_invMixPoly_of_colMul (hone ▸ h (wordOfBytes 1 0 0 0))
    obtain ⟨rfl, rfl, rfl, rfl⟩ := wordOfBytes_inj hinv
    rfl
  · rintro h w
    cases h
    rw [← invMixPoly, ← invMixColumn_eq_colMul, invMixColumn_mixColumn]

/-- The matrix with first row m0 m1 m2 m3 and the later rows rotated left, times w. -/
def leftRotated (m0 m1 m2 m3 : Byte) (w : Word) : Word :=
  wordOfBytes (rowMul w m0 m1 m2 m3) (rowMul w m1 m2 m3 m0) (rowMul w m2 m3 m0 m1) (rowMul w m3 m0 m1 m2)

/-- Byte 2 of the image of 1 and byte 1 of the image of X are the same sum; the one should be 0 and the other 1. -/
theorem leftRotated_not_undoes (m0 m1 m2 m3 : Byte) : ∃ w : Word, leftRotated m0 m1 m2 m3 (mixColumn w) ≠ w := by
  by_contra! h
  have hone : mixColumn (wordOfBytes 1 0 0 0) = wordOfBytes 2 1 1 3 := by decide
  have hX : mixColumn (wordOfBytes 0 1 0 0) = wordOfBytes 3 2 1 1 := by decide
  have h1 := h (wordOfBytes 1 0 0 0)
  have h2 := h (wordOfBytes 0 1 0 0)
  rw [hone] at h1
  rw [hX] at h2
  obtain ⟨-, -, hzero, -⟩ := wordOfBytes_inj h1
  obtain ⟨-, hunit, -, -⟩ := wordOfBytes_inj h2
  have hsame : rowMul (wordOfBytes 2 1 1 3) m2 m3 m0 m1 = rowMul (wordOfBytes 3 2 1 1) m1 m2 m3 m0 := by
    simp only [rowMul, byte_wordOfBytes]
    ac_rfl
  rw [hsame, hunit] at hzero
  exact absurd hzero (by decide)

/-- Settles O39: for any first row at all, and so for the 24 orders. -/
theorem inverseMatrixIsTheOnlyOne : Obligations.InverseMatrixIsTheOnlyOne := by
  intro m0 m1 m2 m3 _
  have hmul (w : Word) : colMul w (wordOfBytes m0 m3 m2 m1) = wordOfBytes (rowMul w m0 m1 m2 m3)
      (rowMul w m3 m0 m1 m2) (rowMul w m2 m3 m0 m1) (rowMul w m1 m2 m3 m0) := by
    simp only [colMul, byte_wordOfBytes]
  have hright := rightRotated_undoes_iff m0 m1 m2 m3
  simp only [hmul] at hright
  exact ⟨hright, leftRotated_not_undoes m0 m1 m2 m3⟩

/-! ## The key-schedule units (R140, R142) -/

/-- Settles O45: nine doublings evaluated, and the bytes that RotWord is built of. -/
theorem keyScheduleUnitLaws : Obligations.KeyScheduleUnitLaws := by
  refine ⟨fun i h0 h8 => ?_, fun w => byte_wordOfBytes _ _ _ _⟩
  interval_cases i <;> decide

/-! ## The round keys (R149) -/

/-- The round index of the operand n is n in 4 bits (R64). -/
theorem rnd_ofNat (n : Nat) : rnd (BitVec.ofNat 128 n) = BitVec.ofNat 4 n := by
  refine BitVec.eq_of_toNat_eq ?_
  rw [toNat_rnd, BitVec.toNat_ofNat, BitVec.toNat_ofNat]
  omega

theorem aes128Key_succ (r : Rom) (key : Block) (i : Nat) :
    aes128Key r key (i + 1) = kf1 r (aes128Key r key i) (BitVec.ofNat 4 i) :=
  congrArg (kf1 r (aes128Key r key i)) (rnd_ofNat i)

theorem aes256Key_add_two (r : Rom) (lo hi : Block) (i : Nat) : aes256Key r lo hi (i + 2) =
    kf2 r (aes256Key r lo hi i) (aes256Key r lo hi (i + 1)) (BitVec.ofNat 4 (i + 2)) :=
  congrArg (kf2 r (aes256Key r lo hi i) (aes256Key r lo hi (i + 1))) (rnd_ofNat (i + 2))

/-- Settles O60: each further round key is one request to the unit, with the round index as its operand. -/
theorem roundKeySchedules : Obligations.RoundKeySchedules :=
  ⟨fun r key => ⟨rfl, fun i => aes128Key_succ r key i⟩, fun r lo hi => ⟨rfl, rfl, fun i => aes256Key_add_two r lo hi i⟩⟩

end Sys2Proof.Proofs
end

section
/-! The field laws of the GF(2^128) product (44_gf128.md R161 to R163), by the same route as those of GF(2^8): the loop is
linear in each operand and commutes with doubling, so a law holds of all values once it holds of 1 (`block_induction`). -/

namespace Sys2Proof.Proofs

open Sys2Proof.Machine Sys2Proof.Laws

/-! ## Doubling and the loop are linear -/

/-- The reduction constant taken once for each operand with bit 127 set. -/
theorem clmulDouble_eq_xor (v : Block) :
    clmulDouble v = v <<< 1 ^^^ if v.getLsbD 127 then 0x87#128 else 0#128 := by
  rw [clmulDouble]
  split
  · rfl
  · exact BitVec.xor_zero.symm

theorem clmulDouble_xor (v w : Block) : clmulDouble (v ^^^ w) = clmulDouble v ^^^ clmulDouble w := by
  have hreduce : (if (v ^^^ w).getLsbD 127 then 0x87#128 else 0#128) =
      (if v.getLsbD 127 then 0x87#128 else 0#128) ^^^ if w.getLsbD 127 then 0x87#128 else 0#128 := by
    rw [BitVec.getLsbD_xor]
    cases v.getLsbD 127 <;> cases w.getLsbD 127 <;> decide
  rw [clmulDouble_eq_xor, clmulDouble_eq_xor v, clmulDouble_eq_xor w, BitVec.shiftLeft_xor_distrib, hreduce]
  ac_rfl

theorem clmulV_xor (h g : Block) (i : Nat) : clmulV (h ^^^ g) i = clmulV h i ^^^ clmulV g i := by
  induction i with
  | zero => rfl
  | succ i ih => simp only [clmulV, ih, clmulDouble_xor]

theorem clmulV_double (h : Block) (i : Nat) : clmulV (clmulDouble h) i = clmulDouble (clmulV h i) := by
  induction i with
  | zero => rfl
  | succ i ih => simp only [clmulV, ih]

theorem clmulZ_xor_right (s h g : Block) (i : Nat) : clmulZ s (h ^^^ g) i = clmulZ s h i ^^^ clmulZ s g i := by
  induction i with
  | zero => exact BitVec.xor_self.symm
  | succ i ih =>
    simp only [clmulZ, ih, clmulV_xor]
    split
    · ac_rfl
    · rfl

theorem clmulZ_double_right (s h : Block) (i : Nat) : clmulZ s (clmulDouble h) i = clmulDouble (clmulZ s h i) := by
  induction i with
  | zero => exact clmulDouble_zero.symm
  | succ i ih =>
    simp only [clmulZ, ih, clmulV_double]
    split
    · rw [clmulDouble_xor]
    · rfl

theorem clmulReduce_xor_right (s h g : Block) : clmulReduce s (h ^^^ g) = clmulReduce s h ^^^ clmulReduce s g :=
  clmulZ_xor_right s h g 128

theorem clmulReduce_double_right (s h : Block) : clmulReduce s (clmulDouble h) = clmulDouble (clmulReduce s h) :=
  clmulZ_double_right s h 128

theorem clmulReduce_one_left (h : Block) : clmulReduce 1 h = h := clmulZ_one_left h 127

/-! ## The laws, each by induction on the second operand -/

/-- Every value is a sum of doublings of 1: a property of 1 that sums and doubling keep holds of all values. -/
theorem block_induction {P : Block → Prop} (one : P 1) (xor : ∀ x y, P x → P y → P (x ^^^ y))
    (double : ∀ x, P x → P (clmulDouble x)) (x : Block) : P x := by
  have hpow (i : Nat) : P (clmulV 1 i) := by
    induction i with
    | zero => exact one
    | succ i ih => exact double _ ih
  have hacc (i : Nat) : P (clmulZ x 1 i) := by
    induction i with
    | zero => exact xor 1 1 one one
    | succ i ih =>
      rw [clmulZ]
      split
      · exact xor _ _ ih (hpow i)
      · exact ih
  exact clmulReduce_one_right x ▸ hacc 128

theorem clmulReduce_xor_left (s t h : Block) : clmulReduce (s ^^^ t) h = clmulReduce s h ^^^ clmulReduce t h := by
  induction h using block_induction with
  | one => simp only [clmulReduce_one_right]
  | xor u v hu hv =>
    simp only [clmulReduce_xor_right, hu, hv]
    ac_rfl
  | double u hu => simp only [clmulReduce_double_right, hu, clmulDouble_xor]

theorem clmulReduce_double_left (s h : Block) : clmulReduce (clmulDouble s) h = clmulDouble (clmulReduce s h) := by
  induction h using block_induction with
  | one => simp only [clmulReduce_one_right]
  | xor u v hu hv => simp only [clmulReduce_xor_right, hu, hv, clmulDouble_xor]
  | double u hu => simp only [clmulReduce_double_right, hu]

theorem clmulReduce_comm (s h : Block) : clmulReduce s h = clmulReduce h s := by
  induction h using block_induction with
  | one => rw [clmulReduce_one_right, clmulReduce_one_left]
  | xor u v hu hv => rw [clmulReduce_xor_right, clmulReduce_xor_left, hu, hv]
  | double u hu => rw [clmulReduce_double_right, clmulReduce_double_left, hu]

theorem clmulReduce_assoc (s t h : Block) :
    clmulReduce (clmulReduce s t) h = clmulReduce s (clmulReduce t h) := by
  induction h using block_induction with
  | one => simp only [clmulReduce_one_right]
  | xor u v hu hv => simp only [clmulReduce_xor_right, hu, hv]
  | double u hu => simp only [clmulReduce_double_right, hu]

/-! ## The product between bit reversals (R160, R162) -/

theorem reverse_xor {n : Nat} (v w : BitVec n) : (v ^^^ w).reverse = v.reverse ^^^ w.reverse := by
  refine BitVec.eq_of_getLsbD_eq fun i hi => ?_
  rw [BitVec.getLsbD_xor, BitVec.getLsbD_reverse, BitVec.getLsbD_reverse, BitVec.getLsbD_reverse, BitVec.getMsbD_xor]

theorem brev8_xor (v w : Block) : brev8 (v ^^^ w) = brev8 v ^^^ brev8 w := by
  refine eq_of_bytes fun k hk => ?_
  rw [byte_xor, byte_brev8 _ hk, byte_brev8 _ hk, byte_brev8 _ hk, byte_xor, reverse_xor]

theorem gf128mul_comm (x y : Block) : gf128mul x y = gf128mul y x := by
  rw [gf128mul, gf128mul, clmulReduce_comm]

theorem gf128mul_assoc (x y z : Block) : gf128mul (gf128mul x y) z = gf128mul x (gf128mul y z) := by
  simp only [gf128mul, brev8_brev8, clmulReduce_assoc]

theorem gf128mul_xor_right (x y z : Block) : gf128mul x (y ^^^ z) = gf128mul x y ^^^ gf128mul x z := by
  simp only [gf128mul, brev8_xor, clmulReduce_xor_right]

theorem gf128mul_xor_left (x y z : Block) : gf128mul (x ^^^ y) z = gf128mul x z ^^^ gf128mul y z := by
  simp only [gf128mul, brev8_xor, clmulReduce_xor_left]

/-- Settles O47: the laws of the loop carried over by bit reversal, which is linear and undoes itself. -/
theorem gf128FieldLaws : Obligations.Gf128FieldLaws :=
  ⟨gf128mul_comm, gf128mul_assoc, fun x y z => ⟨gf128mul_xor_right x y z, gf128mul_xor_left x y z⟩,
    fun x => ⟨gf128mul_zero_right x, gf128mul_zero_left x, gf128mul_identity_right x, gf128mul_identity_left x,
      brev8_brev8 x⟩⟩

end Sys2Proof.Proofs
end

section
/-! Rounds composed: what undoes one round, and the whole cipher (45_aes_round.md R185, R186). -/

namespace Sys2Proof.Proofs

open Sys2Proof.Machine Sys2Proof.Laws

/-! ## One round (R185) -/

theorem invsubbytes_invshiftrows_shiftrows_subbytes (x : Block) :
    invsubbytes Rom.reset (invshiftrows (shiftrows (subbytes Rom.reset x))) = x := by
  rw [invshiftrows_shiftrows, invsubbytes_subbytes]

/-- AESDM after AESEM, both with the key 0 (R185). -/
theorem resAesdm_resAesem_counting :
    resAesdm Rom.reset (resAesem Rom.reset (fips 0x000102030405060708090a0b0c0d0e0f) 0) 0 =
      fips 0xaf88138d942ec4c714cad140ddc631fc := by decide +kernel

/-- AESDF after AESEF, both with the key 0x01 in every byte (R185). -/
theorem resAesdf_resAesef_counting :
    resAesdf Rom.reset (resAesef Rom.reset (fips 0x000102030405060708090a0b0c0d0e0f)
      0x01010101010101010101010101010101) 0x01010101010101010101010101010101 =
      fips 0xaa120ebc7f5944892f53d2947c4b6303 := by decide +kernel

theorem resAesem_undone (x k : Block) :
    invsubbytes Rom.reset (invshiftrows (invmixcolumns (resAesem Rom.reset x k ^^^ k))) = x := by
  rw [resAesem, xor_cancel_right, invmixcolumns_mixcolumns, invsubbytes_invshiftrows_shiftrows_subbytes]

theorem resAesef_undone (x k : Block) :
    invsubbytes Rom.reset (invshiftrows (resAesef Rom.reset x k ^^^ k)) = x := by
  rw [resAesef, xor_cancel_right, invsubbytes_invshiftrows_shiftrows_subbytes]

/-- Settles O58: the two counterexamples are evaluated, and are no identities; the true inverses take the key away
first. -/
theorem oneRoundIsNotUndone : Obligations.OneRoundIsNotUndone := by
  refine ⟨resAesdm_resAesem_counting, resAesdf_resAesef_counting, ⟨fips 0x000102030405060708090a0b0c0d0e0f, 0, ?_⟩,
    ⟨fips 0x000102030405060708090a0b0c0d0e0f, 0x01010101010101010101010101010101, ?_⟩,
    fun x k => ⟨(resAesem_undone x k).symm, (resAesef_undone x k).symm⟩⟩
  · rw [resAesdm_resAesem_counting]
    decide
  · rw [resAesdf_resAesef_counting]
    decide

/-! ## The whole cipher (R186)

Between two rounds of decryption the state is the substituted and shifted state of the encryption round it undoes: the
key of that round is XORed inside AESDM, before inverse MixColumns. -/

theorem encryptRounds_succ (rk : Nat → Block) (p : Block) (n : Nat) : encryptRounds Rom.reset rk p (n + 1) =
    mixcolumns (shiftrows (subbytes Rom.reset (encryptRounds Rom.reset rk p n))) ^^^ rk (n + 1) := rfl

theorem decryptRounds_succ (rk : Nat → Block) (n : Nat) (s : Block) : decryptRounds Rom.reset rk (n + 1) s =
    decryptRounds Rom.reset rk n (invmixcolumns (invsubbytes Rom.reset (invshiftrows s) ^^^ rk (n + 1))) := rfl

theorem encrypt_eq (rk : Nat → Block) (nr : Nat) (p : Block) : encrypt Rom.reset rk nr p =
    shiftrows (subbytes Rom.reset (encryptRounds Rom.reset rk p (nr - 1))) ^^^ rk nr := rfl

theorem decrypt_eq (rk : Nat → Block) (nr : Nat) (ct : Block) : decrypt Rom.reset rk nr ct =
    invsubbytes Rom.reset (invshiftrows (decryptRounds Rom.reset rk (nr - 1) (ct ^^^ rk nr))) ^^^ rk 0 := rfl

/-- n middle rounds of decryption take the substituted and shifted state of round n back to that of the zero round. -/
theorem decryptRounds_shiftrows_subbytes_encryptRounds (rk : Nat → Block) (p : Block) (n : Nat) :
    decryptRounds Rom.reset rk n (shiftrows (subbytes Rom.reset (encryptRounds Rom.reset rk p n))) =
      shiftrows (subbytes Rom.reset (p ^^^ rk 0)) := by
  induction n with
  | zero => rfl
  | succ n ih =>
    rw [decryptRounds_succ, invsubbytes_invshiftrows_shiftrows_subbytes, encryptRounds_succ, xor_cancel_right,
      invmixcolumns_mixcolumns, ih]

/-- Settles O59: AESZ takes the last key away, the middle rounds go back to the zero round, and AESDF undoes that. -/
theorem wholeCipherRoundTrip : Obligations.WholeCipherRoundTrip := by
  intro rk nr p _
  rw [decrypt_eq, encrypt_eq, xor_cancel_right, decryptRounds_shiftrows_subbytes_encryptRounds,
    invsubbytes_invshiftrows_shiftrows_subbytes, xor_cancel_right]

end Sys2Proof.Proofs
end
